-- ==== Sys2Proof/Word.lean ====
section
/-! DEFINITION. The word types of the block: bytes, 16-bit register patterns, 10-bit event words, binary32 patterns, times. -/

namespace Sys2Proof

/-- One byte of a bus transfer (`30_encoding.md` R63; `20_memory.md` R46). -/
abbrev Byte := BitVec 8

/-- The pattern of a 2-byte register (`10_state.md` R11). -/
abbrev Half := BitVec 16

/-- An event word, `w[9:8]` kind and `w[7:0]` payload (`30_encoding.md` R61). -/
abbrev EventWord := BitVec 10

/-- An IEEE 754 binary32 bit pattern, the format of `tempIn` (`00_scope.md` R5). -/
abbrev Binary32 := BitVec 32

/-- The domain of `now` and `last`: unbounded natural numbers (`00_scope.md` R5). -/
abbrev Time := Nat

end Sys2Proof
end

