-- ==== Sys2Proof/Config.lean ====
section
/-! DEFINITION. The fixed names of the block (its eight registers, the two states of its transaction machine) and its free
values: the conversion draw and the address-line levels. -/

namespace Sys2Proof

/-- The eight registers, in pointer order 1..8 (`10_state.md` R11). Their attributes are in `Machine/RegMap.lean`. -/
inductive Reg where
  | config
  | upperTemp
  | lowerTemp
  | critTemp
  | ambientTemp
  | manufId
  | deviceId
  | resolution
deriving DecidableEq, Repr

/-- The two states of the transaction machine, the one mode that changes decoding (`42_bus_transactions.md` R121,
`30_encoding.md` R65). -/
inductive BusState where
  | idle
  | registerSelected
deriving DecidableEq, Repr

/-- `convOOR` (`00_scope.md` R5, `41_temperature_sampler.md` R96): the raw value of a NaN, infinite or out-of-range input,
"a draw, any 16-bit value". It has no body: nothing constrains it. Its first argument is the number of draws made before,
so that two conversions of one input may differ (DESIGN CHOICE, assumption 2). -/
opaque Config.convOOR : Nat → Binary32 → Half

/-- The levels of the three address lines at initialization, an input of the platform (`40_address_resolver.md` R81,
`70_reset_and_hazards.md` R182: "any levels"). It has no body (DESIGN CHOICE, assumption 3). -/
opaque Config.pinLevel : Fin 3 → Bool

end Sys2Proof
end

