-- ==== Sys2Proof/Syntax.lean ====
section
/-! DEFINITION. The instructions of the block: one constructor per row of spec/opcode_table.json. -/

namespace Sys2Proof

/-- One constructor per row of `spec/opcode_table.json`. A row is an event together with the state it is valid in and, for a
register select, the class of its pointer byte (`30_encoding.md` R72). -/
inductive Instr where
  /-- CONNECT, format C (`42_bus_transactions.md` R123). -/
  | connect (address : BitVec 7) (isRead : Bool)
  /-- SEL_CONFIG, the select byte 0x01 while Idle (R124). -/
  | selConfig
  /-- SEL_UPPER_TEMP, the select byte 0x02 while Idle (R124). -/
  | selUpperTemp
  /-- SEL_LOWER_TEMP, the select byte 0x03 while Idle (R124). -/
  | selLowerTemp
  /-- SEL_CRIT_TEMP, the select byte 0x04 while Idle (R124). -/
  | selCritTemp
  /-- SEL_AMBIENT_TEMP, the select byte 0x05 while Idle (R124). -/
  | selAmbientTemp
  /-- SEL_MANUF_ID, the select byte 0x06 while Idle (R124). -/
  | selManufId
  /-- SEL_DEVICE_ID, the select byte 0x07 while Idle (R124). -/
  | selDeviceId
  /-- SEL_RESOLUTION, the select byte 0x08 while Idle (R124). -/
  | selResolution
  /-- SEL_INVALID_00, the select byte 0x00 while Idle (R125). -/
  | selInvalid00
  /-- SEL_INVALID_09, the select byte 0x09 while Idle (R125). -/
  | selInvalid09
  /-- SEL_INVALID_0A_0B: `ptr` is the whole select byte, pattern 0x0A/0xFE (R125, `30_encoding.md` R67). -/
  | selInvalid0Ato0B (ptr : Byte)
  /-- SEL_INVALID_0C_0F: pattern 0x0C/0xFC. -/
  | selInvalid0Cto0F (ptr : Byte)
  /-- SEL_INVALID_10_1F: pattern 0x10/0xF0. -/
  | selInvalid10to1F (ptr : Byte)
  /-- SEL_INVALID_20_3F: pattern 0x20/0xE0. -/
  | selInvalid20to3F (ptr : Byte)
  /-- SEL_INVALID_40_7F: pattern 0x40/0xC0. -/
  | selInvalid40to7F (ptr : Byte)
  /-- SEL_INVALID_80_FF: pattern 0x80/0x80. -/
  | selInvalid80toFF (ptr : Byte)
  /-- WRITE_DATA, a data byte while RegisterSelected (R126). -/
  | writeData (byte : Byte)
  /-- READ_DATA, a read while RegisterSelected (R127). -/
  | readData
  /-- READ_IDLE, a read while Idle (R128). -/
  | readIdle
  /-- DISCONNECT (R129). -/
  | disconnect
deriving DecidableEq, Repr

end Sys2Proof
end

