-- ==== Sys2Proof/WellFormed.lean ====
section
/-! DEFINITION. When an instruction is well formed: the pointer byte of an invalid select matches its row's pattern. -/

namespace Sys2Proof

/-- The byte pattern `value/mask` of `30_encoding.md` R67. -/
def matchesPattern (value mask p : Byte) : Bool := p &&& mask == value

/-- Whether the operands are ones the encoding admits. Only the six patterned invalid selects carry a constraint
(`30_encoding.md` R67); every value of the other operands is legal (R62, R63). -/
def Instr.wellFormed : Instr → Bool
  | .connect _ _ => true
  | .selConfig => true
  | .selUpperTemp => true
  | .selLowerTemp => true
  | .selCritTemp => true
  | .selAmbientTemp => true
  | .selManufId => true
  | .selDeviceId => true
  | .selResolution => true
  | .selInvalid00 => true
  | .selInvalid09 => true
  | .selInvalid0Ato0B p => matchesPattern 0x0A 0xFE p
  | .selInvalid0Cto0F p => matchesPattern 0x0C 0xFC p
  | .selInvalid10to1F p => matchesPattern 0x10 0xF0 p
  | .selInvalid20to3F p => matchesPattern 0x20 0xE0 p
  | .selInvalid40to7F p => matchesPattern 0x40 0xC0 p
  | .selInvalid80toFF p => matchesPattern 0x80 0x80 p
  | .writeData _ => true
  | .readData => true
  | .readIdle => true
  | .disconnect => true

end Sys2Proof
end

