-- ==== Sys2Proof/Decode.lean ====
section
/-! DEFINITION. The decoder (total on event words, in two levels as the spec has it: word to event, event and state to
instruction) and, after it, the encoder. -/

namespace Sys2Proof

/-- The four kinds of event (`30_encoding.md` R60). -/
inductive Event where
  | connect (address : BitVec 7) (isRead : Bool)
  | write (byte : Byte)
  | read
  | disconnect
deriving DecidableEq, Repr

/-- Why a number is not decoded. -/
inductive DecodeError where
  /-- The number does not fit in ten bits: "Every event word is 10 bits. No event has another length" (R61). -/
  | notAnEventWord
deriving DecidableEq, Repr

/-- `w[9:8]`, the kind of an event word (R61). -/
def kindOf (w : EventWord) : BitVec 2 := w.extractLsb' 8 2

/-- `w[7:0]`, the payload of an event word (R61). -/
def payloadOf (w : EventWord) : Byte := w.extractLsb' 0 8

/-- The event an event word stands for (R61 to R64, R72). The payload of Read and Disconnect is ignored. -/
def decodeEvent (w : EventWord) : Event :=
  if kindOf w = 0b00#2 then .connect (w.extractLsb' 1 7) (w.getLsbD 0)
  else if kindOf w = 0b01#2 then .write (payloadOf w)
  else if kindOf w = 0b10#2 then .read
  else .disconnect

/-- The register-select opcode map over a Write byte while Idle, by the value/mask patterns of R67. -/
def decodeSelect (p : Byte) : Instr :=
  if p = 0x01#8 then .selConfig
  else if p = 0x02#8 then .selUpperTemp
  else if p = 0x03#8 then .selLowerTemp
  else if p = 0x04#8 then .selCritTemp
  else if p = 0x05#8 then .selAmbientTemp
  else if p = 0x06#8 then .selManufId
  else if p = 0x07#8 then .selDeviceId
  else if p = 0x08#8 then .selResolution
  else if p = 0x00#8 then .selInvalid00
  else if p = 0x09#8 then .selInvalid09
  else if matchesPattern 0x0A 0xFE p then .selInvalid0Ato0B p
  else if matchesPattern 0x0C 0xFC p then .selInvalid0Cto0F p
  else if matchesPattern 0x10 0xF0 p then .selInvalid10to1F p
  else if matchesPattern 0x20 0xE0 p then .selInvalid20to3F p
  else if matchesPattern 0x40 0xC0 p then .selInvalid40to7F p
  else .selInvalid80toFF p

/-- State-dependent decode (R65, R66): what an event means in a state of the transaction machine. -/
def decodeIn (m : BusState) : Event → Instr
  | .connect a r => .connect a r
  | .write b =>
    match m with
    | .idle => decodeSelect b
    | .registerSelected => .writeData b
  | .read =>
    match m with
    | .idle => .readIdle
    | .registerSelected => .readData
  | .disconnect => .disconnect

/-- The instruction an event word is, in a state of the transaction machine. No event word is illegal (R69, R72). -/
def decode (m : BusState) (w : EventWord) : Instr := decodeIn m (decodeEvent w)

/-- Decoding a number: one that is not ten bits wide is no event word and is rejected by name (R61). -/
def decodeNumber (m : BusState) (w : Nat) : Except DecodeError Instr :=
  if w < 2 ^ 10 then .ok (decode m (BitVec.ofNat 10 w)) else .error .notAnEventWord

/-- The host's decoder hook: the instruction that the number `w` of `spec/opcode_table.json` is WHILE IDLE, the state after
reset (`42_bus_transactions.md` R121). A word's meaning depends on the state (R65, R66), so the words of the rows WRITE_DATA
and READ_DATA decode here to the Idle rows with the same bits (DESIGN CHOICE, assumption 6). -/
def decodeTableWord (_nbits w : Nat) : Option Instr :=
  match decodeNumber .idle w with
  | .ok i => some i
  | .error _ => none

/-- The states of the transaction machine an instruction is valid in: the "state" column of `spec/opcode_table.json`
(R65, R66; "Only valid in state …", `42_bus_transactions.md` R124 to R128). -/
def Instr.validIn : Instr → BusState → Bool
  | .connect _ _, _ => true
  | .disconnect, _ => true
  | .writeData _, m => m == .registerSelected
  | .readData, m => m == .registerSelected
  | .selConfig, m => m == .idle
  | .selUpperTemp, m => m == .idle
  | .selLowerTemp, m => m == .idle
  | .selCritTemp, m => m == .idle
  | .selAmbientTemp, m => m == .idle
  | .selManufId, m => m == .idle
  | .selDeviceId, m => m == .idle
  | .selResolution, m => m == .idle
  | .selInvalid00, m => m == .idle
  | .selInvalid09, m => m == .idle
  | .selInvalid0Ato0B _, m => m == .idle
  | .selInvalid0Cto0F _, m => m == .idle
  | .selInvalid10to1F _, m => m == .idle
  | .selInvalid20to3F _, m => m == .idle
  | .selInvalid40to7F _, m => m == .idle
  | .selInvalid80toFF _, m => m == .idle
  | .readIdle, m => m == .idle

/-- A Connect word: kind 00, the address in `w[7:1]`, the direction in `w[0]` (R62). -/
def connectWord (address : BitVec 7) (isRead : Bool) : EventWord := 0b00#2 ++ (address ++ BitVec.ofBool isRead : BitVec 8)

/-- A Write word: kind 01, the byte in `w[7:0]` (R63). -/
def writeWord (b : Byte) : EventWord := 0b01#2 ++ b

/-- The Read word: kind 10; "an encoder writes 0x00" (R64). -/
def readWord : EventWord := 0b10#2 ++ 0x00#8

/-- The Disconnect word: kind 11; "an encoder writes 0x00" (R64). -/
def disconnectWord : EventWord := 0b11#2 ++ 0x00#8

/-- The event word of an instruction (R61 to R64, R67). -/
def encode : Instr → EventWord
  | .connect a r => connectWord a r
  | .selConfig => writeWord 0x01
  | .selUpperTemp => writeWord 0x02
  | .selLowerTemp => writeWord 0x03
  | .selCritTemp => writeWord 0x04
  | .selAmbientTemp => writeWord 0x05
  | .selManufId => writeWord 0x06
  | .selDeviceId => writeWord 0x07
  | .selResolution => writeWord 0x08
  | .selInvalid00 => writeWord 0x00
  | .selInvalid09 => writeWord 0x09
  | .selInvalid0Ato0B p => writeWord p
  | .selInvalid0Cto0F p => writeWord p
  | .selInvalid10to1F p => writeWord p
  | .selInvalid20to3F p => writeWord p
  | .selInvalid40to7F p => writeWord p
  | .selInvalid80toFF p => writeWord p
  | .writeData b => writeWord b
  | .readData => readWord
  | .readIdle => readWord
  | .disconnect => disconnectWord

/-- "mask" of an instruction's row in `spec/opcode_table.json`. -/
def Instr.tableMask : Instr → EventWord
  | .connect _ _ => 0x300
  | .selConfig => 0x3FF
  | .selUpperTemp => 0x3FF
  | .selLowerTemp => 0x3FF
  | .selCritTemp => 0x3FF
  | .selAmbientTemp => 0x3FF
  | .selManufId => 0x3FF
  | .selDeviceId => 0x3FF
  | .selResolution => 0x3FF
  | .selInvalid00 => 0x3FF
  | .selInvalid09 => 0x3FF
  | .selInvalid0Ato0B _ => 0x3FE
  | .selInvalid0Cto0F _ => 0x3FC
  | .selInvalid10to1F _ => 0x3F0
  | .selInvalid20to3F _ => 0x3E0
  | .selInvalid40to7F _ => 0x3C0
  | .selInvalid80toFF _ => 0x380
  | .writeData _ => 0x300
  | .readData => 0x300
  | .readIdle => 0x300
  | .disconnect => 0x300

/-- "match" of an instruction's row in `spec/opcode_table.json`. -/
def Instr.tableMatch : Instr → EventWord
  | .connect _ _ => 0x000
  | .selConfig => 0x101
  | .selUpperTemp => 0x102
  | .selLowerTemp => 0x103
  | .selCritTemp => 0x104
  | .selAmbientTemp => 0x105
  | .selManufId => 0x106
  | .selDeviceId => 0x107
  | .selResolution => 0x108
  | .selInvalid00 => 0x100
  | .selInvalid09 => 0x109
  | .selInvalid0Ato0B _ => 0x10A
  | .selInvalid0Cto0F _ => 0x10C
  | .selInvalid10to1F _ => 0x110
  | .selInvalid20to3F _ => 0x120
  | .selInvalid40to7F _ => 0x140
  | .selInvalid80toFF _ => 0x180
  | .writeData _ => 0x100
  | .readData => 0x200
  | .readIdle => 0x200
  | .disconnect => 0x300

end Sys2Proof
end

