-- ==== Sys2Proof/Machine/RegMap.lean ====
section
/-! DEFINITION. The fixed attributes of the eight registers (width, read-only, pointer) and the constants of the block. -/

namespace Sys2Proof

/-- `WIDTH(r)` in bytes: "RESOLUTION is 1 byte; all others are 2 bytes" (`10_state.md` R11). -/
def Reg.width : Reg → Nat
  | .config => 2
  | .upperTemp => 2
  | .lowerTemp => 2
  | .critTemp => 2
  | .ambientTemp => 2
  | .manufId => 2
  | .deviceId => 2
  | .resolution => 1

/-- The readOnly attribute (`10_state.md` R11). It gates no write (`20_memory.md` R44); it only decides the warning of
`42_bus_transactions.md` R126. -/
def Reg.readOnly : Reg → Bool
  | .config => false
  | .upperTemp => false
  | .lowerTemp => false
  | .critTemp => false
  | .ambientTemp => true
  | .manufId => true
  | .deviceId => true
  | .resolution => false

/-- The pointer value of a register (`20_memory.md` R49). -/
def Reg.pointer : Reg → Byte
  | .config => 0x01
  | .upperTemp => 0x02
  | .lowerTemp => 0x03
  | .critTemp => 0x04
  | .ambientTemp => 0x05
  | .manufId => 0x06
  | .deviceId => 0x07
  | .resolution => 0x08

/-- The register a pointer value names; 0x00 and 0x09..0xFF name none (`20_memory.md` R49, `10_state.md` R13). -/
def Reg.ofPointer (p : Byte) : Option Reg :=
  if p = 0x01#8 then some .config
  else if p = 0x02#8 then some .upperTemp
  else if p = 0x03#8 then some .lowerTemp
  else if p = 0x04#8 then some .critTemp
  else if p = 0x05#8 then some .ambientTemp
  else if p = 0x06#8 then some .manufId
  else if p = 0x07#8 then some .deviceId
  else if p = 0x08#8 then some .resolution
  else none

/-- `BASE_ADDR` (`00_scope.md` R5). -/
def baseAddr : BitVec 7 := 0x18

/-- `IDLE_READ_VALUE`, the byte a Read returns while Idle (`00_scope.md` R5; `92_eei_decisions.md` D6). -/
def idleReadValue : Byte := 0xFF

/-- `resolveAddress`, the address resolver: `0x18 | (pin[2] << 2) | (pin[1] << 1) | pin[0]` (`40_address_resolver.md` R80). -/
def resolveAddress (pin : Fin 3 → Bool) : BitVec 7 :=
  let level (i : Fin 3) : BitVec 7 := (BitVec.ofBool (pin i)).setWidth 7
  baseAddr ||| (level 2 <<< 2 ||| level 1 <<< 1 ||| level 0)

end Sys2Proof
end

