-- ==== Sys2Proof/Machine/State.lean ====
section
/-! DEFINITION. The state of one instance of the block, its inputs and outputs, the reasons a step can stop, and the state after
initialization. -/

namespace Sys2Proof.Machine

/-- The environment inputs present at an event (`00_scope.md` R8): the time and the temperature input. -/
structure Env where
  now    : Time
  tempIn : Binary32
deriving DecidableEq, Repr

/-- One event the bus layer will deliver, with the environment at it: the `w, env` of `Step(S, w, env)`
(`42_bus_transactions.md` R120). -/
structure Arrival where
  word : EventWord
  env  : Env
deriving DecidableEq, Repr

/-- The errors an event can raise, each with its info (`60_exceptions.md` R150). -/
inductive ProtocolError where
  | invalidRegister (byte : Byte)
  | noRegisterSelected
  | roWrite (r : Reg)
deriving DecidableEq, Repr

/-- The result of an event (`30_encoding.md` R68); `none` is a field the event does not produce. -/
structure Result where
  ack   : Option Bool
  rdata : Option Byte
  err   : BitVec 2
deriving DecidableEq, Repr

/-- A diagnostic item (`60_exceptions.md` R160). -/
inductive Diag where
  | addr (a : BitVec 7)
  | select (r : Reg)
  | read (r : Reg) (i : Nat) (b : Byte)
  | write (r : Reg) (i : Nat) (b : Byte)
  | error (e : ProtocolError)
deriving DecidableEq, Repr

/-- The register file, each register at its own width (`10_state.md` R11, R12). It is the whole memory of the block
(`00_scope.md` R7, `20_memory.md` R40). -/
structure Regs where
  config      : BitVec 16
  upperTemp   : BitVec 16
  lowerTemp   : BitVec 16
  critTemp    : BitVec 16
  ambientTemp : BitVec 16
  manufId     : BitVec 16
  deviceId    : BitVec 16
  resolution  : BitVec 8
deriving DecidableEq, Repr

/-- The state of one instance (`10_state.md` R10): the registers, the cursor, the sampling clock and the device address.
The remaining fields are the model's own: the inputs the step takes, the outputs of the steps taken, and the counter of the
free value (assumptions 1, 2, 5). -/
structure State where
  /-- `x[1..8]` (R11). -/
  regs    : Regs
  /-- `sel`, the selected register; `none` is Idle (R22). -/
  sel     : Option Reg
  /-- `idx`, the remaining byte index (R22). -/
  idx     : Nat
  /-- `last`, the sampling clock; `none` is `never` (R23). -/
  last    : Option Time
  /-- `devAddr`, the device address latch (R24). -/
  devAddr : BitVec 7
  /-- The environment at the current event (`00_scope.md` R8): an input, not state of the block. -/
  env     : Env
  /-- The events the bus layer has still to deliver, the next one first (`20_memory.md` R50): an input. -/
  inbox   : List Arrival
  /-- How many values have been drawn from `Config.convOOR`. -/
  draws   : Nat
  /-- The result of the last event (`30_encoding.md` R68): an output. -/
  res     : Result
  /-- The diagnostic trace, oldest item first (`60_exceptions.md` R160): an output no rule reads. -/
  trace   : List Diag
deriving DecidableEq, Repr

/-- Faults of the machine: there are none. "The block has no trap mechanism" (`60_exceptions.md` R154), and no error "is fatal
to the process" (R152); errors are the `err` code of a result. -/
inductive Fault where
deriving DecidableEq, Repr

/-- Why a meaning is refused. `Machine.step` never answers with one of these. -/
inductive Refusal where
  /-- Raised by an arm of `exec` whose instruction has no meaning yet (no arm is one). Safe. -/
  | notModelled (mnemonic : String)
  /-- Raised by a meaning of a row valid only in Idle, applied to a state that is RegisterSelected: there the same word is
  another instruction ("Only valid in state Idle", `42_bus_transactions.md` R124, R125, R128). The decoder never pairs the two.
  Safe. -/
  | onlyWhileIdle
  /-- Raised by a meaning of a row valid only in RegisterSelected, applied to an Idle state: there the same word is another
  instruction ("Only valid in state RegisterSelected", R126, R127). The decoder never pairs the two. Safe. -/
  | onlyWhileSelected
deriving DecidableEq, Repr

/-- The register values after initialization (`70_reset_and_hazards.md` R171). -/
def Regs.reset : Regs where
  config      := 0x0000
  upperTemp   := 0x0000
  lowerTemp   := 0x0000
  critTemp    := 0x0000
  ambientTemp := 0x0000
  manufId     := 0x0054
  deviceId    := 0x0400
  resolution  := 0x00

/-- The result in which no field is set (`42_bus_transactions.md` R120). -/
def Result.empty : Result := ⟨none, none, 0⟩

/-- `Init(pin[0..2])` (`70_reset_and_hazards.md` R171), with no event delivered yet. The values of `env` and `draws` are the
model's (assumptions 1, 2). -/
def State.init (pin : Fin 3 → Bool) : State where
  regs    := Regs.reset
  sel     := none
  idx     := 0
  last    := none
  devAddr := resolveAddress pin
  env     := ⟨0, 0⟩
  inbox   := []
  draws   := 0
  res     := Result.empty
  trace   := [.addr (resolveAddress pin)]

/-- The machine right after initialization, whatever its address lines are (DESIGN CHOICE, assumption 3). -/
def State.reset : State := State.init Config.pinLevel

end Sys2Proof.Machine
end

