-- ==== Sys2Proof/Machine/Operands.lean ====
section
/-! DEFINITION. The operands of the rules: the register file by name, the cursor's byte position, the state of the transaction
machine. -/

namespace Sys2Proof.Machine

/-- What a meaning answers. -/
abbrev Outcome := Host.Outcome State Fault Refusal

/-- `x[r]` as an operand (`00_scope.md` R7); RESOLUTION is read zero-extended. -/
def Regs.get (x : Regs) : Reg → Half
  | .config => x.config
  | .upperTemp => x.upperTemp
  | .lowerTemp => x.lowerTemp
  | .critTemp => x.critTemp
  | .ambientTemp => x.ambientTemp
  | .manufId => x.manufId
  | .deviceId => x.deviceId
  | .resolution => x.resolution.setWidth 16

/-- `x[r] <- v`. RESOLUTION keeps the low 8 bits: "`value` is always masked to `width*8` bits" (`20_memory.md` R43). -/
def Regs.set (x : Regs) (r : Reg) (v : Half) : Regs :=
  match r with
  | .config => { x with config := v }
  | .upperTemp => { x with upperTemp := v }
  | .lowerTemp => { x with lowerTemp := v }
  | .critTemp => { x with critTemp := v }
  | .ambientTemp => { x with ambientTemp := v }
  | .manufId => { x with manufId := v }
  | .deviceId => { x with deviceId := v }
  | .resolution => { x with resolution := v.setWidth 8 }

/-- The width mask `2^(8*WIDTH(r)) - 1` (`20_memory.md` R42). -/
def widthMask (r : Reg) : Half := BitVec.ofNat 16 (2 ^ (8 * r.width) - 1)

/-- The register whose bytes a data transfer moves, or none while Idle (`10_state.md` R22). -/
def State.busState (s : State) : BusState :=
  match s.sel with
  | none => .idle
  | some _ => .registerSelected

end Sys2Proof.Machine
end

