-- ==== Sys2Proof/Machine/Flags.lean ====
section
/-! DEFINITION. The alert flags and the composition of AMBIENT_TEMP (`41_temperature_sampler.md` §4). -/

namespace Sys2Proof.Machine

/-- `CritFlag(raw, thr)`: the unsigned comparison of two 16-bit patterns (R97). -/
def critFlag (raw thr : Half) : BitVec 1 := if thr.toNat ≤ raw.toNat then 1 else 0

/-- The upper flag of a sample taken: 0 (R98). -/
def upperFlag : BitVec 1 := 0

/-- The lower flag of a sample taken: 0 (R98). -/
def lowerFlag : BitVec 1 := 0

/-- `{crit, upper, lower, raw[12:0]}`, the value a sample stores into AMBIENT_TEMP (R99). -/
def composeAmbient (crit upper lower : BitVec 1) (raw : Half) : Half :=
  crit ++ (upper ++ (lower ++ raw.extractLsb' 0 13 : BitVec 14) : BitVec 15)

end Sys2Proof.Machine
end

