-- ==== Sys2Proof/Machine/Sampler.lean ====
section
/-! DEFINITION. The temperature sampler: the floor gate, the Q4 encoder and the procedure `Sample()`
(`41_temperature_sampler.md`). -/

namespace Sys2Proof.Machine

/-- `Floor(res)` (R92). -/
def floorOf (res : BitVec 2) : Nat :=
  if res = 0 then 30 else if res = 1 then 65 else if res = 2 then 130 else 250

/-- RES, the resolution setting `x[8][1:0]` (`10_state.md` R21). -/
def Regs.res (x : Regs) : BitVec 2 := x.resolution.extractLsb' 0 2

/-- Whether the gate skips the sample: `last != never` and `now - last < Floor(x[8][1:0])`, the difference exact (R93). The
first sample is always taken (R94). -/
def State.gateSkips (s : State) : Bool :=
  match s.last with
  | none => false
  | some t => decide ((s.env.now : Int) - (t : Int) < (floorOf s.regs.res : Int))

/-- The sign bit of a binary32 pattern. -/
def signBit (t : Binary32) : Bool := t.getLsbD 31

/-- The biased exponent of a binary32 pattern. -/
def exponentField (t : Binary32) : Nat := (t.extractLsb' 23 8).toNat

/-- The fraction field of a binary32 pattern. -/
def fractionField (t : Binary32) : Nat := (t.extractLsb' 0 23).toNat

/-- `t` is finite: its exponent field is not all ones (R96; IEEE 754, PRESUMED, assumption 4). -/
def isFinite (t : Binary32) : Bool := exponentField t != 255

/-- The magnitude of `trunc(t * 16)` for a finite `t`. The value of `t` is `m * 2^(e - 150)` with the significand `m`, so the exact
product is `m * 2^(e - 146)`; `e` is 1 for a subnormal (R96, PRESUMED, assumption 4). -/
def truncMagnitude16 (t : Binary32) : Nat :=
  let e := if exponentField t = 0 then 1 else exponentField t
  let m := if exponentField t = 0 then fractionField t else 2 ^ 23 + fractionField t
  if 146 ≤ e then m * 2 ^ (e - 146) else m / 2 ^ (146 - e)

/-- `trunc(t * 16)` for a finite `t`, rounding toward zero (R96). -/
def trunc16 (t : Binary32) : Int :=
  if signBit t then -(truncMagnitude16 t : Int) else (truncMagnitude16 t : Int)

/-- `Q4(t)` where the spec gives its value: `u16(trunc(t * 16))` for a finite `t` whose product is in int32 range; `none` where
the value is the draw `convOOR` (R96). -/
def q4 (t : Binary32) : Option Half :=
  if isFinite t = true ∧ -2 ^ 31 ≤ trunc16 t ∧ trunc16 t ≤ 2 ^ 31 - 1 then some (BitVec.ofInt 16 (trunc16 t)) else none

/-- The raw value of the sample being taken: `Q4(tempIn)`, or the next draw where it is open (R96, DESIGN CHOICE, assumption 2). -/
def State.rawSample (s : State) : Half := (q4 s.env.tempIn).getD (Config.convOOR s.draws s.env.tempIn)

/-- The number of draws after converting `tempIn`. -/
def State.drawsAfterConversion (s : State) : Nat := if (q4 s.env.tempIn).isSome then s.draws else s.draws + 1

/-- `Sample()` (R100): skipped by the gate, or `last <- now`, the conversion, and the replacing write of AMBIENT_TEMP (R95 to R99). -/
def State.sample (s : State) : State :=
  if s.gateSkips then s
  else
    { s with
      last := some s.env.now
      draws := s.drawsAfterConversion
      regs := s.regs.set .ambientTemp
        (composeAmbient (critFlag s.rawSample s.regs.critTemp) upperFlag lowerFlag s.rawSample) }

end Sys2Proof.Machine
end

