-- ==== Sys2Proof/Machine/Ops.lean ====
section
/-! DEFINITION. The named operations the meanings are made of: byte access to the register file, the cursor, the result of an
event, raising an error, the diagnostic trace, and the arrival of an event. -/

namespace Sys2Proof.Machine

/-- `MemRead(r, i)` = `(x[r] >> (8*i)) & 0xFF` (`20_memory.md` R41). -/
def State.memRead (s : State) (r : Reg) (i : Nat) : Byte := (s.regs.get r >>> (8 * i)).setWidth 8

/-- `MemWrite(r, i, b)`, the accumulate write `x[r] <- (x[r] | (b << 8i)) & mask` (`20_memory.md` R42). The readOnly attribute
does not gate it (R44). -/
def State.memWrite (s : State) (r : Reg) (i : Nat) (b : Byte) : State :=
  { s with regs := s.regs.set r ((s.regs.get r ||| (b.setWidth 16 <<< (8 * i))) &&& widthMask r) }

/-- The cursor set by a valid select of `r`: `sel <- r`, `idx <- WIDTH(r) - 1` (`42_bus_transactions.md` R124). -/
def State.setCursor (s : State) (r : Reg) : State := { s with sel := some r, idx := r.width - 1 }

/-- `Advance()`, the cursor step after a byte transfer; the test comes before the decrement (`42_bus_transactions.md` R122). -/
def State.advance (s : State) : State :=
  if s.idx = 0 then { s with sel := none } else { s with idx := s.idx - 1 }

/-- `res <- (ack = none, rdata = none, err = NONE)`, the start of every event (`42_bus_transactions.md` R120;
`60_exceptions.md` R151). -/
def State.beginEvent (s : State) : State := { s with res := Result.empty }

/-- `ack <- true` (`00_scope.md` R7): "always ACK in this design" (`30_encoding.md` R68). -/
def State.acknowledge (s : State) : State := { s with res := { s.res with ack := some true } }

/-- `rdata <- b` (`00_scope.md` R7). -/
def State.setRdata (s : State) (b : Byte) : State := { s with res := { s.res with rdata := some b } }

/-- `emit Diag<Kind>(args)`: one item appended to the diagnostic trace (`00_scope.md` R7). -/
def State.emit (s : State) (d : Diag) : State := { s with trace := s.trace ++ [d] }

/-- The 2-bit code of an error (`60_exceptions.md` R150). -/
def ProtocolError.code : ProtocolError → BitVec 2
  | .invalidRegister _ => 1
  | .noRegisterSelected => 2
  | .roWrite _ => 3

/-- `raise <Error>(info)` and its diagnostic item: the block's whole exception mechanism. It sets the `err` field of this event's
result and emits `DiagError`; it saves no state, vectors nowhere and stops nothing (`00_scope.md` R7; `60_exceptions.md` R151,
R154; `42_bus_transactions.md` R125, R126, R128). There is no return from it (R155). -/
def State.raise (s : State) (e : ProtocolError) : State :=
  ({ s with res := { s.res with err := e.code } }).emit (.error e)

/-- The RoWrite warning of a data write to a readOnly register (`42_bus_transactions.md` R126). -/
def State.warnReadOnly (s : State) (r : Reg) : State := if r.readOnly then s.raise (.roWrite r) else s

/-- A register select that names `r` (`42_bus_transactions.md` R124). -/
def State.selectRegister (s : State) (r : Reg) : State :=
  ((s.beginEvent.sample.setCursor r).emit (.select r)).acknowledge

/-- A register select that names no register: the sampler runs, the error is raised, the cursor stays (R125). -/
def State.selectNothing (s : State) (b : Byte) : State :=
  (s.beginEvent.sample.raise (.invalidRegister b)).acknowledge

/-- A data byte into the selected register `r` at the cursor's index (R126). -/
def State.transferIn (s : State) (r : Reg) (b : Byte) : State :=
  ((((s.beginEvent.memWrite r s.idx b).emit (.write r s.idx b)).warnReadOnly r).advance).acknowledge

/-- One byte out of the selected register `r` at the cursor's index (R127). -/
def State.transferOut (s : State) (r : Reg) : State :=
  ((s.beginEvent.setRdata (s.memRead r s.idx)).emit (.read r s.idx (s.memRead r s.idx))).advance

/-- A read with no register selected (R128). -/
def State.readNothing (s : State) : State :=
  (s.beginEvent.setRdata idleReadValue).raise .noRegisterSelected

/-- A row valid only in Idle (`30_encoding.md` R65, R66). -/
def whileIdle (s t : State) : Outcome :=
  match s.sel with
  | none => .next t
  | some _ => .refused .onlyWhileIdle

/-- A row valid only in RegisterSelected, over the selected register (`30_encoding.md` R65, R66). -/
def whileSelected (s : State) (f : Reg → State) : Outcome :=
  match s.sel with
  | none => .refused .onlyWhileSelected
  | some r => .next (f r)

/-- The bus layer delivers an event: it leaves the inbox, and its environment is present (`00_scope.md` R8; `20_memory.md` R50). -/
def State.accept (s : State) (a : Arrival) (rest : List Arrival) : State := { s with inbox := rest, env := a.env }

/-- An event word put first in the inbox, with the environment already present. A number that is no event word is not delivered. -/
def State.deliverFirst (s : State) (w : Nat) : State :=
  if w < 2 ^ 10 then { s with inbox := ⟨BitVec.ofNat 10 w, s.env⟩ :: s.inbox } else s

end Sys2Proof.Machine
end

