-- ==== Sys2Proof/Machine/Select.lean ====
section
/-! DEFINITION. The meanings of the register selects: the Write events that arrive while Idle. -/

namespace Sys2Proof.Machine

/-- The select byte 0x01 (`42_bus_transactions.md` R124). -/
def execSelConfig (s : State) : Outcome := whileIdle s (s.selectRegister .config)

/-- The select byte 0x02 (`42_bus_transactions.md` R124). -/
def execSelUpperTemp (s : State) : Outcome := whileIdle s (s.selectRegister .upperTemp)

/-- The select byte 0x03 (`42_bus_transactions.md` R124). -/
def execSelLowerTemp (s : State) : Outcome := whileIdle s (s.selectRegister .lowerTemp)

/-- The select byte 0x04 (`42_bus_transactions.md` R124). -/
def execSelCritTemp (s : State) : Outcome := whileIdle s (s.selectRegister .critTemp)

/-- The select byte 0x05 (`42_bus_transactions.md` R124). -/
def execSelAmbientTemp (s : State) : Outcome := whileIdle s (s.selectRegister .ambientTemp)

/-- The select byte 0x06 (`42_bus_transactions.md` R124). -/
def execSelManufId (s : State) : Outcome := whileIdle s (s.selectRegister .manufId)

/-- The select byte 0x07 (`42_bus_transactions.md` R124). -/
def execSelDeviceId (s : State) : Outcome := whileIdle s (s.selectRegister .deviceId)

/-- The select byte 0x08 (`42_bus_transactions.md` R124). -/
def execSelResolution (s : State) : Outcome := whileIdle s (s.selectRegister .resolution)

/-- The invalid select byte 0x00 (`42_bus_transactions.md` R125). -/
def execSelInvalid00 (s : State) : Outcome := whileIdle s (s.selectNothing 0x00)

/-- The invalid select byte 0x09 (`42_bus_transactions.md` R125). -/
def execSelInvalid09 (s : State) : Outcome := whileIdle s (s.selectNothing 0x09)

/-- An invalid select byte in 0x0A..0x0B (`42_bus_transactions.md` R125). -/
def execSelInvalid0Ato0B (ptr : Byte) (s : State) : Outcome := whileIdle s (s.selectNothing ptr)

/-- An invalid select byte in 0x0C..0x0F (`42_bus_transactions.md` R125). -/
def execSelInvalid0Cto0F (ptr : Byte) (s : State) : Outcome := whileIdle s (s.selectNothing ptr)

/-- An invalid select byte in 0x10..0x1F (`42_bus_transactions.md` R125). -/
def execSelInvalid10to1F (ptr : Byte) (s : State) : Outcome := whileIdle s (s.selectNothing ptr)

/-- An invalid select byte in 0x20..0x3F (`42_bus_transactions.md` R125). -/
def execSelInvalid20to3F (ptr : Byte) (s : State) : Outcome := whileIdle s (s.selectNothing ptr)

/-- An invalid select byte in 0x40..0x7F (`42_bus_transactions.md` R125). -/
def execSelInvalid40to7F (ptr : Byte) (s : State) : Outcome := whileIdle s (s.selectNothing ptr)

/-- An invalid select byte in 0x80..0xFF (`42_bus_transactions.md` R125). -/
def execSelInvalid80toFF (ptr : Byte) (s : State) : Outcome := whileIdle s (s.selectNothing ptr)

end Sys2Proof.Machine
end

