-- ==== Sys2Proof/Machine/Transaction.lean ====
section
/-! DEFINITION. The meanings of CONNECT and DISCONNECT. -/

namespace Sys2Proof.Machine

/-- CONNECT (`42_bus_transactions.md` R123): ACK; the address and the direction are ignored. -/
def execConnect (_address : BitVec 7) (_isRead : Bool) (s : State) : Outcome := .next s.beginEvent.acknowledge

/-- DISCONNECT (`42_bus_transactions.md` R129): nothing; the cursor is not cleared. -/
def execDisconnect (s : State) : Outcome := .next s.beginEvent

end Sys2Proof.Machine
end

