-- ==== Sys2Proof/Machine/Transfer.lean ====
section
/-! DEFINITION. The meanings of the byte transfers: data writes and reads. -/

namespace Sys2Proof.Machine

/-- WRITE_DATA (`42_bus_transactions.md` R126). -/
def execWriteData (byte : Byte) (s : State) : Outcome := whileSelected s fun r => s.transferIn r byte

/-- READ_DATA (`42_bus_transactions.md` R127). -/
def execReadData (s : State) : Outcome := whileSelected s fun r => s.transferOut r

/-- READ_IDLE (`42_bus_transactions.md` R128). -/
def execReadIdle (s : State) : Outcome := whileIdle s s.readNothing

end Sys2Proof.Machine
end

