-- ==== Sys2Proof/Machine/Dispatch.lean ====
section
/-! DEFINITION. One arm per instruction, each a call of its meaning. -/

namespace Sys2Proof.Machine

def exec (i : Instr) (s : State) : Host.Outcome State Fault Refusal :=
  match i with
  | .connect a r => Sys2Proof.Machine.execConnect a r s
  | .selConfig => Sys2Proof.Machine.execSelConfig s
  | .selUpperTemp => Sys2Proof.Machine.execSelUpperTemp s
  | .selLowerTemp => Sys2Proof.Machine.execSelLowerTemp s
  | .selCritTemp => Sys2Proof.Machine.execSelCritTemp s
  | .selAmbientTemp => Sys2Proof.Machine.execSelAmbientTemp s
  | .selManufId => Sys2Proof.Machine.execSelManufId s
  | .selDeviceId => Sys2Proof.Machine.execSelDeviceId s
  | .selResolution => Sys2Proof.Machine.execSelResolution s
  | .selInvalid00 => Sys2Proof.Machine.execSelInvalid00 s
  | .selInvalid09 => Sys2Proof.Machine.execSelInvalid09 s
  | .selInvalid0Ato0B p => Sys2Proof.Machine.execSelInvalid0Ato0B p s
  | .selInvalid0Cto0F p => Sys2Proof.Machine.execSelInvalid0Cto0F p s
  | .selInvalid10to1F p => Sys2Proof.Machine.execSelInvalid10to1F p s
  | .selInvalid20to3F p => Sys2Proof.Machine.execSelInvalid20to3F p s
  | .selInvalid40to7F p => Sys2Proof.Machine.execSelInvalid40to7F p s
  | .selInvalid80toFF p => Sys2Proof.Machine.execSelInvalid80toFF p s
  | .writeData b => Sys2Proof.Machine.execWriteData b s
  | .readData => Sys2Proof.Machine.execReadData s
  | .readIdle => Sys2Proof.Machine.execReadIdle s
  | .disconnect => Sys2Proof.Machine.execDisconnect s

end Sys2Proof.Machine
end

