-- ==== Sys2Proof/Machine/Step.lean ====
section
/-! DEFINITION. One step: the next event of the inbox is delivered, decoded in the present state and run
(`42_bus_transactions.md` R120). -/

namespace Sys2Proof.Machine

/-- One step. With no event to deliver the block does nothing: "It acts only when an event arrives" (`10_state.md` R25,
DESIGN CHOICE, assumption 1). -/
def step (s : State) : Host.Outcome State Fault Refusal :=
  match s.inbox with
  | [] => .next s
  | a :: rest => exec (decode s.busState a.word) (s.accept a rest)

/-- The event word `w` delivered as the very next event, at the time and temperature already present. -/
def State.withFetchWord (s : State) (_nbits w : Nat) : State := s.deliverFirst w

end Sys2Proof.Machine
end

