-- ==== Sys2Proof/Safety.lean ====
section
/-! DEFINITION. The terms claims are stated in: the invariant of the block, the host's contract on time, counting transfers, and
the exact value of a binary32 pattern. -/

namespace Sys2Proof

/-- The exact value of a finite binary32 pattern, `none` for NaN and the infinities: `(-1)^sign * 1.fraction * 2^(e - 127)`, and
`(-1)^sign * 0.fraction * 2^(-126)` for a subnormal (IEEE 754, PRESUMED, assumption 4). It is written apart from the model's encoder, so
that claims about the encoder have an independent measure. -/
def binary32Value (t : Binary32) : Option ℚ :=
  let sign : ℚ := if t.toNat / 2 ^ 31 = 1 then -1 else 1
  let e : ℕ := t.toNat / 2 ^ 23 % 2 ^ 8
  let fraction : ℚ := ((t.toNat % 2 ^ 23 : ℕ) : ℚ) / 2 ^ 23
  if e = 255 then none
  else if e = 0 then some (sign * fraction * (2 : ℚ) ^ (-126 : ℤ))
  else some (sign * (1 + fraction) * (2 : ℚ) ^ ((e : ℤ) - 127))

/-- `trunc(q)`: the integer nearest to `q` in the direction of zero (`00_scope.md` R6). -/
def truncTowardZero (q : ℚ) : ℤ := if 0 ≤ q then ⌊q⌋ else ⌈q⌉

/-- The pointer byte of an invalid select, by row (`30_encoding.md` R67). -/
def Instr.invalidPointer : Instr → Option Byte
  | .selInvalid00 => some 0x00
  | .selInvalid09 => some 0x09
  | .selInvalid0Ato0B p => some p
  | .selInvalid0Cto0F p => some p
  | .selInvalid10to1F p => some p
  | .selInvalid20to3F p => some p
  | .selInvalid40to7F p => some p
  | .selInvalid80toFF p => some p
  | .connect _ _ => none
  | .selConfig => none
  | .selUpperTemp => none
  | .selLowerTemp => none
  | .selCritTemp => none
  | .selAmbientTemp => none
  | .selManufId => none
  | .selDeviceId => none
  | .selResolution => none
  | .writeData _ => none
  | .readData => none
  | .readIdle => none
  | .disconnect => none

/-- The register a valid select names, by row (`30_encoding.md` R67). -/
def Instr.selected : Instr → Option Reg
  | .selConfig => some .config
  | .selUpperTemp => some .upperTemp
  | .selLowerTemp => some .lowerTemp
  | .selCritTemp => some .critTemp
  | .selAmbientTemp => some .ambientTemp
  | .selManufId => some .manufId
  | .selDeviceId => some .deviceId
  | .selResolution => some .resolution
  | .connect _ _ => none
  | .selInvalid00 => none
  | .selInvalid09 => none
  | .selInvalid0Ato0B _ => none
  | .selInvalid0Cto0F _ => none
  | .selInvalid10to1F _ => none
  | .selInvalid20to3F _ => none
  | .selInvalid40to7F _ => none
  | .selInvalid80toFF _ => none
  | .writeData _ => none
  | .readData => none
  | .readIdle => none
  | .disconnect => none

namespace Machine

/-- While a register is selected the byte index lies inside it (`10_state.md` R22). -/
def State.CursorInRange (s : State) : Prop := ∀ r, s.sel = some r → s.idx < r.width

/-- The invariant of the block: the cursor lies inside the selected register (R22); the device address is one of the eight
(R24); the identity registers keep the bits they had at reset (R19, R20, `70_reset_and_hazards.md` R176); and until the first
sample the block is Idle with every register at its reset value (R172). -/
structure State.Inv (s : State) : Prop where
  cursor   : s.CursorInRange
  address  : 0x18 ≤ s.devAddr.toNat ∧ s.devAddr.toNat ≤ 0x1F
  manufId  : s.regs.manufId &&& 0x0054 = 0x0054
  deviceId : s.regs.deviceId &&& 0x0400 = 0x0400
  unsampled : s.last = none → s.sel = none ∧ s.regs = Regs.reset

/-- The host's duty on time (`70_reset_and_hazards.md` R182): the times of the events to come never decrease and none lies before
the time present now; and the last sample was not taken later than now. -/
structure State.TimeOrdered (s : State) : Prop where
  events : List.Pairwise (fun a b => a.env.now ≤ b.env.now) s.inbox
  present : ∀ a ∈ s.inbox, s.env.now ≤ a.env.now
  sampled : ∀ t, s.last = some t → t ≤ s.env.now

/-- Whether an event word is one that moves a byte while a register is selected: a Write or a Read. -/
def isTransfer (w : EventWord) : Bool := kindOf w == 0b01#2 || kindOf w == 0b10#2

/-- How many of the events move a byte while a register is selected. -/
def transfers (l : List Arrival) : Nat := l.countP fun a => isTransfer a.word

/-- The state of an outcome that is a next state. -/
def nextOf : Outcome → Option State
  | .next t => some t
  | .fault _ => none
  | .refused _ => none

end Machine

end Sys2Proof
end

