-- ==== Sys2Proof/Certificates/Slice0/Obligations.lean ====
section
/-! DEFINITION. The statements for the provers. -/

open Sys2Proof Sys2Proof.Machine

/-! ### Encoding -/

/-- Test table E of `95_test_vectors.md` (rules R61 to R64), in the Idle state where the state matters. -/
def Obligations.ListedEventWordsDecode : Prop :=
  decode .idle 0b0000110100#10 = .connect 0x1A false ∧
  decode .registerSelected 0b0000110101#10 = .connect 0x1A true ∧
  decode .idle 0b0011111111#10 = .connect 0x7F true ∧
  decode .idle 0b0100000110#10 = .selManufId ∧
  decode .idle 0b0100000000#10 = .selInvalid00 ∧
  decode .registerSelected 0b0100000000#10 = .writeData 0x00 ∧
  decode .idle 0b0111111111#10 = .selInvalid80toFF 0xFF ∧
  decode .registerSelected 0b1000000000#10 = .readData ∧
  decode .idle 0b1010100101#10 = .readIdle ∧
  decode .idle 0b1100000000#10 = .disconnect ∧
  decode .registerSelected 0b1111111111#10 = .disconnect

/-- R72: every event word decodes to exactly one event, whose kind is `w[9:8]` and whose payload is laid out as R62 to R64 say. -/
def Obligations.EveryEventWordDecodesByKind : Prop :=
  ∀ w : EventWord,
    (w.toNat / 256 = 0 →
      decodeEvent w = .connect (BitVec.ofNat 7 (w.toNat / 2)) (decide (w.toNat % 2 = 1))) ∧
    (w.toNat / 256 = 1 → decodeEvent w = .write (BitVec.ofNat 8 w.toNat)) ∧
    (w.toNat / 256 = 2 → decodeEvent w = .read) ∧
    (w.toNat / 256 = 3 → decodeEvent w = .disconnect)

/-- R65, R66: a Write is a register select while Idle (the rows of R124 for the pointers 1..8, the rows of R125 for every other byte)
and data while RegisterSelected, whatever its value; a Read is READ_IDLE or READ_DATA; Connect and Disconnect do not depend on
the state. -/
def Obligations.TransactionStateSelectsTheRow : Prop :=
  (∀ b : Byte,
    (1 ≤ b.toNat ∧ b.toNat ≤ 8 →
      ∃ r, (decodeIn .idle (.write b)).selected = some r ∧ r.pointer = b) ∧
    (¬(1 ≤ b.toNat ∧ b.toNat ≤ 8) →
      (decodeIn .idle (.write b)).invalidPointer = some b ∧ (decodeIn .idle (.write b)).wellFormed = true) ∧
    decodeIn .registerSelected (.write b) = .writeData b) ∧
  decodeIn .registerSelected .read = .readData ∧
  decodeIn .idle .read = .readIdle ∧
  ∀ m a d, decodeIn m (.connect a d) = .connect a d ∧ decodeIn m .disconnect = .disconnect

/-- Decoding the encoding of a well-formed instruction, in a state it is valid in, gives it back. -/
def Obligations.DecodeOfEncodeIsTheInstruction : Prop :=
  ∀ (i : Instr) (m : BusState), i.wellFormed = true → i.validIn m = true → decode m (encode i) = i

/-- What the decoder gives is well formed and valid in the state it was decoded in, and encoding it gives the word back, less the
payload of a Read or Disconnect, which carries nothing (R64). -/
def Obligations.EncodeOfDecodeIsTheWord : Prop :=
  ∀ (m : BusState) (w : EventWord),
    (decode m w).wellFormed = true ∧ (decode m w).validIn m = true ∧
    (encode (decode m w)).toNat = if w.toNat < 512 then w.toNat else w.toNat / 256 * 256

/-! ### The step -/

/-- A step delivers the oldest event of the inbox, decodes its word in the state of the transaction machine, and is `exec` of that
instruction with the event's environment present; with no event to deliver the state does not change (the last clause is the
model's choice, DESIGN CHOICE, assumption 1). -/
def Obligations.StepRunsTheDecodedEvent : Prop :=
  ∀ s : State,
    (∀ a rest, s.inbox = a :: rest →
      step s = exec (decode (if s.sel = none then .idle else .registerSelected) a.word)
        { s with inbox := rest, env := a.env }) ∧
    (s.inbox = [] → step s = .next s)

/-- R8, R152, R154: no state and no event stops the block. -/
def Obligations.NoStepStops : Prop :=
  ∀ s : State, ∃ t, step s = .next t

/-- An instruction completes in exactly the states its row is valid in; elsewhere it is refused by name, because there its word
is another instruction (R65, R66; the refusal is the model's, DESIGN CHOICE, assumption 7). -/
def Obligations.InstructionCompletesExactlyWhereValid : Prop :=
  ∀ (i : Instr) (s : State),
    (i.validIn s.busState = true → ∃ t, exec i s = .next t) ∧
    (i.validIn s.busState = false →
      exec i s = .refused (if s.sel = none then .onlyWhileSelected else .onlyWhileIdle))

/-! ### What each instruction does -/

/-- R123: CONNECT acknowledges, ignores its operands and changes no state. -/
def Obligations.ConnectOnlyAcknowledges : Prop :=
  ∀ (a : BitVec 7) (d : Bool) (s : State),
    exec (.connect a d) s = .next { s with res := ⟨some true, none, 0⟩ }

/-- R129: DISCONNECT changes no state and returns nothing; the cursor is not cleared. -/
def Obligations.DisconnectChangesNothing : Prop :=
  ∀ s : State, exec .disconnect s = .next { s with res := ⟨none, none, 0⟩ }

/-- R128: a read while Idle returns 0xFF with error 2, emits the error and changes no state (the value and the code are the spec's
decisions D6 and D14). -/
def Obligations.IdleReadReturnsSentinelAndError : Prop :=
  ∀ s : State, s.sel = none →
    exec .readIdle s = .next { s with
      res := ⟨none, some 0xFF, 2⟩
      trace := s.trace ++ [.error .noRegisterSelected] }

/-- R127 and R122: a read while RegisterSelected returns the byte at the cursor (bits `[8*idx + 7 : 8*idx]` of the register),
emits it, and steps the cursor, going Idle after index 0; nothing else changes. -/
def Obligations.SelectedReadReturnsCursorByteAndAdvances : Prop :=
  ∀ (s : State) (r : Reg), s.sel = some r →
    let byte : Byte := BitVec.ofNat 8 ((s.regs.get r).toNat / 2 ^ (8 * s.idx))
    exec .readData s = .next { s with
      sel := if s.idx = 0 then none else some r
      idx := s.idx - 1
      res := ⟨none, some byte, 0⟩
      trace := s.trace ++ [.read r s.idx byte] }

/-- R126, with R42, R44 and R122: a data byte is ORed into the selected register at the cursor's byte, readOnly or not; every other byte of
the register file keeps its value; the cursor steps; the byte is acknowledged, with the RoWrite warning exactly on AMBIENT_TEMP,
MANUF_ID and DEVICE_ID (the warning is the spec's decision D7 and its code D14; UNVERIFIED, assumption 10); and nothing else
changes. -/
def Obligations.DataWriteAccumulatesIntoCursorByte : Prop :=
  ∀ (s : State) (r : Reg) (b : Byte), s.sel = some r →
    ∃ t, exec (.writeData b) s = .next t ∧
      (t.regs.get r).toNat =
        ((s.regs.get r).toNat ||| b.toNat * 2 ^ (8 * s.idx)) % 2 ^ (8 * r.width) ∧
      (∀ r', r' ≠ r → t.regs.get r' = s.regs.get r') ∧
      (∀ r' i, i < r'.width → (r', i) ≠ (r, s.idx) → t.memRead r' i = s.memRead r' i) ∧
      (s.idx < r.width → t.memRead r s.idx = s.memRead r s.idx ||| b) ∧
      t.sel = (if s.idx = 0 then none else some r) ∧ t.idx = s.idx - 1 ∧
      (if r = .ambientTemp ∨ r = .manufId ∨ r = .deviceId then
        t.res = ⟨some true, none, 3⟩ ∧ t.trace = s.trace ++ [.write r s.idx b, .error (.roWrite r)]
      else
        t.res = ⟨some true, none, 0⟩ ∧ t.trace = s.trace ++ [.write r s.idx b]) ∧
      t.last = s.last ∧ t.devAddr = s.devAddr ∧ t.env = s.env ∧ t.inbox = s.inbox ∧ t.draws = s.draws

/-- R124: each of the eight valid selects runs the sampler, then points the cursor at the highest byte of its register (index 1,
and 0 for RESOLUTION), emits the selection and acknowledges; the register file, the sampling clock and the draw counter are as
`Sample()` leaves them, and nothing else changes. -/
def Obligations.ValidSelectSamplesThenPointsAtTopByte : Prop :=
  ∀ (s : State), s.sel = none →
    ∀ p ∈ [(Instr.selConfig, Reg.config), (.selUpperTemp, .upperTemp), (.selLowerTemp, .lowerTemp),
        (.selCritTemp, .critTemp), (.selAmbientTemp, .ambientTemp), (.selManufId, .manufId),
        (.selDeviceId, .deviceId), (.selResolution, .resolution)],
      exec p.1 s = .next { s with
        regs := s.sample.regs
        last := s.sample.last
        draws := s.sample.draws
        sel := some p.2
        idx := if p.2 = .resolution then 0 else 1
        res := ⟨some true, none, 0⟩
        trace := s.trace ++ [.select p.2] }

/-- R125: each invalid select runs the sampler, raises InvalidRegister (error 1) with the byte, acknowledges, and leaves the cursor
as it was; nothing else changes (the spec's decisions D4 and D5). -/
def Obligations.InvalidSelectSamplesAndStaysIdle : Prop :=
  ∀ (s : State) (ptr : Byte), s.sel = none →
    ∀ p ∈ [(Instr.selInvalid00, (0x00 : Byte)), (.selInvalid09, 0x09), (.selInvalid0Ato0B ptr, ptr),
        (.selInvalid0Cto0F ptr, ptr), (.selInvalid10to1F ptr, ptr), (.selInvalid20to3F ptr, ptr),
        (.selInvalid40to7F ptr, ptr), (.selInvalid80toFF ptr, ptr)],
      exec p.1 s = .next { s with
        regs := s.sample.regs
        last := s.sample.last
        draws := s.sample.draws
        res := ⟨some true, none, 1⟩
        trace := s.trace ++ [.error (.invalidRegister p.2)] }

/-! ### The sampler -/

/-- R100 with R92 to R95 and R97 to R99: the sampler does nothing while fewer than the floor of RESOLUTION[1:0] (30, 65, 130, 250)
time units have passed since the last sample; otherwise, and always before the first sample, it sets `last` to the time and
replaces AMBIENT_TEMP by the unsigned critical flag, two zero flags and the low 13 bits of the raw value. The setting is
RESOLUTION[1:0] by the spec's decision D9. The difference is signed, so a time before the last sample skips too (DESIGN CHOICE,
assumption 9). The raw value is `rawSample`, which ConversionTruncatesTowardZeroAndWraps fixes; where it is a free value the
statement holds for every value of it, and the draw counter is the model's own field (DESIGN CHOICE, assumption 2). -/
def Obligations.SamplerGatesConvertsAndComposes : Prop :=
  ∀ s : State,
    let floor : ℤ := [30, 65, 130, 250].getD (s.regs.resolution.toNat % 4) 0
    let raw : ℕ := s.rawSample.toNat
    ((∃ l, s.last = some l ∧ (s.env.now : ℤ) - l < floor) → s.sample = s) ∧
    ((∀ l, s.last = some l → floor ≤ (s.env.now : ℤ) - l) →
      s.sample = { s with
        last := some s.env.now
        draws := if q4 s.env.tempIn = none then s.draws + 1 else s.draws
        regs := { s.regs with
          ambientTemp := BitVec.ofNat 16
            ((if s.regs.critTemp.toNat ≤ raw then 2 ^ 15 else 0) + raw % 2 ^ 13) } })

/-- R96: for a finite input whose sixteenfold, truncated toward zero, is in int32 range, the raw value is that integer wrapped to 16
bits; for every other input it is the open draw `convOOR`. The value of a pattern is IEEE 754's (PRESUMED, assumption 4), and the draw
takes the number of draws before it (DESIGN CHOICE, assumption 2); the statement holds whatever `convOOR` is. -/
def Obligations.ConversionTruncatesTowardZeroAndWraps : Prop :=
  ∀ s : State,
    (∀ v, binary32Value s.env.tempIn = some v →
      -2 ^ 31 ≤ truncTowardZero (v * 16) → truncTowardZero (v * 16) ≤ 2 ^ 31 - 1 →
        (s.rawSample.toNat : ℤ) = truncTowardZero (v * 16) % 2 ^ 16 ∧ q4 s.env.tempIn ≠ none) ∧
    ((∀ v, binary32Value s.env.tempIn = some v →
      truncTowardZero (v * 16) < -2 ^ 31 ∨ 2 ^ 31 - 1 < truncTowardZero (v * 16)) →
        s.rawSample = Config.convOOR s.draws s.env.tempIn ∧ q4 s.env.tempIn = none)

/-- R101: after a sample is taken, the signed 13-bit field TA of AMBIENT_TEMP is the reading in sixteenths of a degree, rounded toward
zero, for every reading in -256.0 to +255.9375 °C. -/
def Obligations.AmbientFieldReadsBackTheTemperature : Prop :=
  ∀ (s : State) (v : ℚ), s.gateSkips = false → binary32Value s.env.tempIn = some v →
    -4096 ≤ truncTowardZero (v * 16) → truncTowardZero (v * 16) ≤ 4095 →
      (s.sample.regs.ambientTemp.extractLsb' 0 13).toInt = truncTowardZero (v * 16)

/-- R179: a negative reading down to -2048 °C sets the critical flag against every threshold below 0x8000, because the comparison
is unsigned. -/
def Obligations.NegativeReadingSetsTheCriticalFlag : Prop :=
  ∀ (s : State) (v : ℚ), s.gateSkips = false → binary32Value s.env.tempIn = some v →
    -32768 ≤ truncTowardZero (v * 16) → truncTowardZero (v * 16) ≤ -1 →
    s.regs.critTemp.toNat < 0x8000 →
      s.sample.regs.ambientTemp.getLsbD 15 = true

/-- R178: while CRIT_TEMP is 0, every sample taken sets AMBIENT_TEMP[15], whatever the reading, a drawn one included. -/
def Obligations.ZeroThresholdSetsTheCriticalFlag : Prop :=
  ∀ s : State, s.gateSkips = false → s.regs.critTemp = 0 → s.sample.regs.ambientTemp.getLsbD 15 = true

/-- R94 with R90: before the first sample, every Write event that arrives while Idle takes a sample, whatever the time, RESOLUTION and the
byte are (a byte that names no register too: the spec's decision D5). -/
def Obligations.FirstSelectAlwaysSamples : Prop :=
  ∀ (s : State) (b : Byte) (e : Env) (rest : List Arrival),
    s.inbox = ⟨writeWord b, e⟩ :: rest → s.sel = none → s.last = none →
      ∃ t, step s = .next t ∧ t.last = some e.now

/-- R90: no event other than a Write that arrives while Idle runs the sampler: `last` and the draws change on no other, and then
AMBIENT_TEMP changes only by a data write into it. -/
def Obligations.OnlyIdleWritesRunTheSampler : Prop :=
  ∀ (s t : State) (a : Arrival) (rest : List Arrival), s.inbox = a :: rest → step s = .next t →
    ¬(s.sel = none ∧ kindOf a.word = 0b01#2) →
      t.last = s.last ∧ t.draws = s.draws ∧
      (t.regs.ambientTemp ≠ s.regs.ambientTemp → s.sel = some .ambientTemp ∧ kindOf a.word = 0b01#2)

/-! ### The address and reset -/

/-- R80, R82: the resolver gives `0x18 | pattern`, which lies in 0x18..0x1F. -/
def Obligations.ResolvedAddressIsBaseOrPins : Prop :=
  ∀ pin : Fin 3 → Bool,
    (resolveAddress pin).toNat =
      0x18 + ((if pin 2 then 4 else 0) + (if pin 1 then 2 else 0) + (if pin 0 then 1 else 0)) ∧
    0x18 ≤ (resolveAddress pin).toNat ∧ (resolveAddress pin).toNat ≤ 0x1F

/-- R171: what initialization leaves, for every level of the address lines (`idx` is the spec's decision D16); the machine's reset state
is one such state, for the levels `Config.pinLevel` (DESIGN CHOICE, assumption 3). -/
def Obligations.InitializationLeavesTheListedValues : Prop :=
  (∀ pin : Fin 3 → Bool,
    let s := State.init pin
    s.regs.config = 0x0000 ∧ s.regs.upperTemp = 0x0000 ∧ s.regs.lowerTemp = 0x0000 ∧ s.regs.critTemp = 0x0000 ∧
    s.regs.ambientTemp = 0x0000 ∧ s.regs.manufId = 0x0054 ∧ s.regs.deviceId = 0x0400 ∧ s.regs.resolution = 0x00 ∧
    s.sel = none ∧ s.idx = 0 ∧ s.last = none ∧ s.devAddr = resolveAddress pin ∧ s.trace = [.addr (resolveAddress pin)]) ∧
  ∃ pin, State.reset = State.init pin

/-- The invariant of the block holds right after initialization, for every level of the address lines. -/
def Obligations.InitializationMeetsTheInvariant : Prop :=
  (∀ pin : Fin 3 → Bool, (State.init pin).Inv) ∧ State.reset.Inv

/-! ### Whole-machine rules -/

/-- Every step keeps the invariant: the cursor inside the selected register (R22), the device address in its range (R24), the
identity bits of reset never lost (R176), and nothing but reset values before the first sample (R172). -/
def Obligations.EveryStepKeepsTheInvariant : Prop :=
  ∀ s t : State, s.Inv → step s = .next t → t.Inv

/-- While the host keeps its duty on time (R182), no sample is ever later than the time present; every step keeps both. -/
def Obligations.EveryStepKeepsTimeOrdered : Prop :=
  ∀ s t : State, s.TimeOrdered → step s = .next t → t.TimeOrdered

/-- R12: every register value is below `2^(8*WIDTH(r))`. -/
def Obligations.RegisterValuesFitTheirWidth : Prop :=
  ∀ (x : Regs) (r : Reg), (x.get r).toNat < 2 ^ (8 * (if r = .resolution then 1 else 2))

/-- R176: no step clears a bit of a register other than AMBIENT_TEMP; and while a register is selected no step clears a bit of
AMBIENT_TEMP either. -/
def Obligations.StepsNeverClearRegisterBits : Prop :=
  ∀ (s t : State) (r : Reg), step s = .next t → r ≠ .ambientTemp ∨ s.sel ≠ none →
    ∀ k, (s.regs.get r).getLsbD k = true → (t.regs.get r).getLsbD k = true

/-- R24, R82: the device address is immutable after initialization, over any run. -/
def Obligations.DeviceAddressIsImmutable : Prop :=
  ∀ (n : ℕ) (s t : State), Host.Core.run Sys2Proof.core n s = .next t → t.devAddr = s.devAddr

/-- R121: the only transitions of the transaction machine. Idle goes to RegisterSelected exactly on a Write of the register's
pointer, with the cursor at the register's highest byte index; RegisterSelected goes to Idle exactly on the byte transfer at index
0, and otherwise keeps its register. -/
def Obligations.TransitionsAreSelectAndLastTransfer : Prop :=
  ∀ (s t : State) (a : Arrival) (rest : List Arrival), s.inbox = a :: rest → step s = .next t →
    (s.sel = none → ∀ r, (t.sel = some r ↔ a.word = writeWord r.pointer) ∧ (t.sel = some r → t.idx = r.width - 1)) ∧
    (∀ r, s.sel = some r → t.sel = if isTransfer a.word = true ∧ s.idx = 0 then none else some r)

/-- R130: after a valid select of `r`, exactly `WIDTH(r)` byte transfers, in any mix of Reads and Writes and with any Connects and
Disconnects between them, bring the machine back to Idle; with fewer, `r` stays selected and the index has counted them. -/
def Obligations.AccessTakesExactlyWidthTransfers : Prop :=
  ∀ (s : State) (r : Reg) (e : Env) (pre rest : List Arrival), s.sel = none →
    s.inbox = ⟨writeWord r.pointer, e⟩ :: (pre ++ rest) →
    ∃ t, Host.Core.run Sys2Proof.core (1 + pre.length) s = .next t ∧ t.inbox = rest ∧
      (transfers pre < r.width → t.sel = some r ∧ t.idx = r.width - 1 - transfers pre) ∧
      (transfers pre = r.width → t.sel = none)

/-- R68, R150, R151 (the codes are the spec's decision D14): the result of every event. ACK is true on every Connect and Write and unset otherwise; only a Read sets `rdata`; the
error code is 1 exactly on an Idle Write of no pointer, 2 exactly on an Idle Read, 3 exactly on a data write to AMBIENT_TEMP,
MANUF_ID or DEVICE_ID, and 0 on every other event: no error is sticky. -/
def Obligations.ResultOfEveryEvent : Prop :=
  ∀ (s t : State) (a : Arrival) (rest : List Arrival), s.inbox = a :: rest → step s = .next t →
    t.res.ack = (if a.word.toNat < 512 then some true else none) ∧
    (t.res.rdata.isSome = true ↔ kindOf a.word = 0b10#2) ∧
    t.res.err =
      (if kindOf a.word = 0b01#2 ∧ s.sel = none ∧ ¬(1 ≤ a.word.toNat % 256 ∧ a.word.toNat % 256 ≤ 8) then 1
      else if kindOf a.word = 0b10#2 ∧ s.sel = none then 2
      else if kindOf a.word = 0b01#2 ∧
        (s.sel = some .ambientTemp ∨ s.sel = some .manufId ∨ s.sel = some .deviceId) then 3
      else 0)

/-- R45: a 2-byte register is read most-significant byte first: after its select, the first Read returns bits [15:8] and the second
bits [7:0] of the register as the select left it, whatever the times and temperatures are, and the machine is Idle again. -/
def Obligations.TwoByteRegisterReadsHighByteFirst : Prop :=
  ∀ (s : State) (r : Reg) (e₁ e₂ e₃ : Env) (w₂ w₃ : EventWord) (rest : List Arrival), s.sel = none → r ≠ .resolution →
    kindOf w₂ = 0b10#2 → kindOf w₃ = 0b10#2 →
    s.inbox = ⟨writeWord r.pointer, e₁⟩ :: ⟨w₂, e₂⟩ :: ⟨w₃, e₃⟩ :: rest →
    ∃ t₁ t₂ t₃, step s = .next t₁ ∧ step t₁ = .next t₂ ∧ step t₂ = .next t₃ ∧
      t₂.res.rdata = some ((t₁.regs.get r).extractLsb' 8 8) ∧
      t₃.res.rdata = some ((t₁.regs.get r).extractLsb' 0 8) ∧
      t₃.sel = none ∧ t₃.regs = t₁.regs

/-- R133: bytes written to a register after selecting it, most-significant first, are read back in the same order after selecting it
again, each ORed with what the byte held before, and so exactly where the register held 0. For AMBIENT_TEMP both selects' samples
are skipped here (at a time before the last sample too: DESIGN CHOICE, assumption 9); AmbientBytesReadBackAfterItsSample has the case
in which the first select samples. -/
def Obligations.WrittenBytesReadBackInOrder : Prop :=
  ∀ (s : State) (r : Reg) (e₁ e₂ e₃ e₄ e₅ e₆ : Env) (b₁ b₀ : Byte) (rest : List Arrival), s.sel = none →
    (r = .ambientTemp → ∃ l, s.last = some l ∧ (e₁.now : ℤ) - l < floorOf s.regs.res ∧
      (e₄.now : ℤ) - l < floorOf s.regs.res) →
    (r ≠ .resolution →
      s.inbox = ⟨writeWord r.pointer, e₁⟩ :: ⟨writeWord b₁, e₂⟩ :: ⟨writeWord b₀, e₃⟩ ::
        ⟨writeWord r.pointer, e₄⟩ :: ⟨readWord, e₅⟩ :: ⟨readWord, e₆⟩ :: rest →
      ∃ t u, Host.Core.run Sys2Proof.core 5 s = .next t ∧ step t = .next u ∧
        t.res.rdata = some (s.memRead r 1 ||| b₁) ∧ u.res.rdata = some (s.memRead r 0 ||| b₀) ∧ u.sel = none) ∧
    (r = .resolution →
      s.inbox = ⟨writeWord r.pointer, e₁⟩ :: ⟨writeWord b₀, e₂⟩ :: ⟨writeWord r.pointer, e₃⟩ :: ⟨readWord, e₄⟩ :: rest →
      ∃ u, Host.Core.run Sys2Proof.core 4 s = .next u ∧
        u.res.rdata = some (s.memRead r 0 ||| b₀) ∧ u.sel = none)

/-- R133 for AMBIENT_TEMP where the first select takes a sample and the second is skipped (at a time before that sample too: DESIGN
CHOICE, assumption 9): the bytes written after the first select are read back in the same order, each ORed with what that select's
sample put there. -/
def Obligations.AmbientBytesReadBackAfterItsSample : Prop :=
  ∀ (s : State) (e₁ e₂ e₃ e₄ e₅ e₆ : Env) (b₁ b₀ : Byte) (rest : List Arrival), s.sel = none →
    (∀ l, s.last = some l → (floorOf s.regs.res : ℤ) ≤ (e₁.now : ℤ) - l) →
    (e₄.now : ℤ) - e₁.now < floorOf s.regs.res →
    s.inbox = ⟨writeWord Reg.ambientTemp.pointer, e₁⟩ :: ⟨writeWord b₁, e₂⟩ :: ⟨writeWord b₀, e₃⟩ ::
      ⟨writeWord Reg.ambientTemp.pointer, e₄⟩ :: ⟨readWord, e₅⟩ :: ⟨readWord, e₆⟩ :: rest →
    ∃ t₁ t u, step s = .next t₁ ∧ t₁.last = some e₁.now ∧
      Host.Core.run Sys2Proof.core 5 s = .next t ∧ step t = .next u ∧
      t.res.rdata = some (t₁.regs.ambientTemp.extractLsb' 8 8 ||| b₁) ∧
      u.res.rdata = some (t₁.regs.ambientTemp.extractLsb' 0 8 ||| b₀) ∧ u.sel = none

/-- R14, R15, R16, R21, R98: CONFIG, UPPER_TEMP, LOWER_TEMP and RESOLUTION[7:2] are storage only (that the setting is RESOLUTION[1:0]
is the spec's decision D9; UNVERIFIED, assumption 10). Two states that differ in nothing else step to states that agree on the other
registers, RESOLUTION[1:0], the cursor, `last`, `devAddr`, the inputs, the draws, ACK and the error code; and on the read data and the
trace too, on every event but those that arrive with one of the four registers selected. -/
def Obligations.StorageOnlyRegistersInfluenceNothing : Prop :=
  ∀ (s t : State) (config upperTemp lowerTemp : Half) (resolution : Byte),
    resolution.toNat % 4 = s.regs.resolution.toNat % 4 → step s = .next t →
    ∃ t', step { s with regs := { s.regs with
          config := config, upperTemp := upperTemp, lowerTemp := lowerTemp, resolution := resolution } } = .next t' ∧
      t'.regs.critTemp = t.regs.critTemp ∧ t'.regs.ambientTemp = t.regs.ambientTemp ∧
      t'.regs.manufId = t.regs.manufId ∧ t'.regs.deviceId = t.regs.deviceId ∧
      t'.regs.resolution.toNat % 4 = t.regs.resolution.toNat % 4 ∧
      t'.sel = t.sel ∧ t'.idx = t.idx ∧ t'.last = t.last ∧ t'.devAddr = t.devAddr ∧ t'.env = t.env ∧
      t'.inbox = t.inbox ∧ t'.draws = t.draws ∧ t'.res.ack = t.res.ack ∧ t'.res.err = t.res.err ∧
      (s.sel ≠ some .config → s.sel ≠ some .upperTemp → s.sel ≠ some .lowerTemp → s.sel ≠ some .resolution →
        t'.res = t.res ∧ t'.trace = t.trace)

/-- R160: the trace is output only. Each step appends at most two items to it, and what it held changes nothing else. -/
def Obligations.TraceGrowsAndInfluencesNothing : Prop :=
  ∀ (s t : State) (older : List Diag), step s = .next t →
    ∃ items, t.trace = s.trace ++ items ∧ items.length ≤ 2 ∧
      step { s with trace := older } = .next { t with trace := older ++ items }
end

