-- ==== Sys2Proof/Laws/Decode.lean ====
section
/-! SUPPORT. Small lemmas of the encoder and the decoder. -/

namespace Sys2Proof

/-- The bits of a kind above a payload, at the width of an event word. -/
theorem eventWord_getLsbD (k : BitVec 2) (p : Byte) (i : Nat) :
    (k ++ p : EventWord).getLsbD i = if i < 8 then p.getLsbD i else k.getLsbD (i - 8) := BitVec.getLsbD_append

/-- The bits of an address above a direction, at the width of a payload. -/
theorem connectPayload_getLsbD (a : BitVec 7) (d : Bool) (i : Nat) :
    (a ++ BitVec.ofBool d : BitVec 8).getLsbD i = if i < 1 then (BitVec.ofBool d).getLsbD i else a.getLsbD (i - 1) :=
  BitVec.getLsbD_append

@[simp] theorem kindOf_append (k : BitVec 2) (p : Byte) : kindOf (k ++ p : EventWord) = k := by
  apply BitVec.eq_of_getLsbD_eq
  intro i hi
  simp [kindOf, hi, eventWord_getLsbD]

@[simp] theorem payloadOf_append (k : BitVec 2) (p : Byte) : payloadOf (k ++ p : EventWord) = p := by
  apply BitVec.eq_of_getLsbD_eq
  intro i hi
  simp [payloadOf, hi, eventWord_getLsbD]

/-- An event word is its kind above its payload (`30_encoding.md` R61). -/
theorem kind_append_payload (w : EventWord) : (kindOf w ++ payloadOf w : EventWord) = w := by
  apply BitVec.eq_of_getLsbD_eq
  intro i hi
  by_cases h : i < 8
  · simp [kindOf, payloadOf, eventWord_getLsbD, h]
  · simp [kindOf, payloadOf, eventWord_getLsbD, h, show i - 8 < 2 by omega, show 8 + (i - 8) = i by omega]

/-- Masking an event word with a full kind masks its payload. -/
theorem eventWord_and (k : BitVec 2) (p m : Byte) :
    (k ++ p : EventWord) &&& (0b11#2 ++ m : EventWord) = (k ++ (p &&& m) : EventWord) := by
  apply BitVec.eq_of_getLsbD_eq
  intro i hi
  rw [BitVec.getLsbD_and, eventWord_getLsbD, eventWord_getLsbD, eventWord_getLsbD]
  split
  · rw [BitVec.getLsbD_and]
  · have : i - 8 = 0 ∨ i - 8 = 1 := by omega
    rcases this with h | h <;> simp [h]

@[simp] theorem kindOf_writeWord (b : Byte) : kindOf (writeWord b) = 0b01#2 := kindOf_append _ _

@[simp] theorem decodeEvent_writeWord (b : Byte) : decodeEvent (writeWord b) = .write b := by
  simp [decodeEvent, writeWord]

@[simp] theorem decodeEvent_readWord : decodeEvent readWord = .read := by decide

@[simp] theorem decodeEvent_disconnectWord : decodeEvent disconnectWord = .disconnect := by decide

@[simp] theorem decodeEvent_connectWord (a : BitVec 7) (d : Bool) : decodeEvent (connectWord a d) = .connect a d := by
  have hk : kindOf (connectWord a d) = 0b00#2 := kindOf_append _ _
  have ha : (connectWord a d).extractLsb' 1 7 = a := by
    apply BitVec.eq_of_getLsbD_eq
    intro i hi
    rw [BitVec.getLsbD_extractLsb', connectWord, eventWord_getLsbD, if_pos (by omega), connectPayload_getLsbD,
      if_neg (by omega)]
    simp [hi]
  have hd : (connectWord a d).getLsbD 0 = d := by
    rw [connectWord, eventWord_getLsbD, if_pos (by omega), connectPayload_getLsbD, if_pos (by omega)]
    simp
  rw [decodeEvent, if_pos hk, ha, hd]

/-- Every register's pointer is decoded as its select, by the row named (`30_encoding.md` R67). -/
theorem decodeSelect_pointers :
    decodeSelect 0x01 = .selConfig ∧ decodeSelect 0x02 = .selUpperTemp ∧ decodeSelect 0x03 = .selLowerTemp ∧
    decodeSelect 0x04 = .selCritTemp ∧ decodeSelect 0x05 = .selAmbientTemp ∧ decodeSelect 0x06 = .selManufId ∧
    decodeSelect 0x07 = .selDeviceId ∧ decodeSelect 0x08 = .selResolution := by decide

end Sys2Proof
end

