-- ==== Sys2Proof/Laws/State.lean ====
section
/-! SUPPORT. One lemma per field per update of State, so that no proof unfolds a record update. -/

namespace Sys2Proof.Machine

variable (s : State)

/-! `State.beginEvent` -/

@[simp] theorem beginEvent_regs : s.beginEvent.regs = s.regs := rfl
@[simp] theorem beginEvent_sel : s.beginEvent.sel = s.sel := rfl
@[simp] theorem beginEvent_idx : s.beginEvent.idx = s.idx := rfl
@[simp] theorem beginEvent_last : s.beginEvent.last = s.last := rfl
@[simp] theorem beginEvent_devAddr : s.beginEvent.devAddr = s.devAddr := rfl
@[simp] theorem beginEvent_env : s.beginEvent.env = s.env := rfl
@[simp] theorem beginEvent_inbox : s.beginEvent.inbox = s.inbox := rfl
@[simp] theorem beginEvent_draws : s.beginEvent.draws = s.draws := rfl
@[simp] theorem beginEvent_res : s.beginEvent.res = Result.empty := rfl
@[simp] theorem beginEvent_trace : s.beginEvent.trace = s.trace := rfl

/-! `State.acknowledge` -/

@[simp] theorem acknowledge_regs : s.acknowledge.regs = s.regs := rfl
@[simp] theorem acknowledge_sel : s.acknowledge.sel = s.sel := rfl
@[simp] theorem acknowledge_idx : s.acknowledge.idx = s.idx := rfl
@[simp] theorem acknowledge_last : s.acknowledge.last = s.last := rfl
@[simp] theorem acknowledge_devAddr : s.acknowledge.devAddr = s.devAddr := rfl
@[simp] theorem acknowledge_env : s.acknowledge.env = s.env := rfl
@[simp] theorem acknowledge_inbox : s.acknowledge.inbox = s.inbox := rfl
@[simp] theorem acknowledge_draws : s.acknowledge.draws = s.draws := rfl
@[simp] theorem acknowledge_res : s.acknowledge.res = { s.res with ack := some true } := rfl
@[simp] theorem acknowledge_trace : s.acknowledge.trace = s.trace := rfl

/-! `State.setRdata` -/

@[simp] theorem setRdata_regs (b : Byte) : (s.setRdata b).regs = s.regs := rfl
@[simp] theorem setRdata_sel (b : Byte) : (s.setRdata b).sel = s.sel := rfl
@[simp] theorem setRdata_idx (b : Byte) : (s.setRdata b).idx = s.idx := rfl
@[simp] theorem setRdata_last (b : Byte) : (s.setRdata b).last = s.last := rfl
@[simp] theorem setRdata_devAddr (b : Byte) : (s.setRdata b).devAddr = s.devAddr := rfl
@[simp] theorem setRdata_env (b : Byte) : (s.setRdata b).env = s.env := rfl
@[simp] theorem setRdata_inbox (b : Byte) : (s.setRdata b).inbox = s.inbox := rfl
@[simp] theorem setRdata_draws (b : Byte) : (s.setRdata b).draws = s.draws := rfl
@[simp] theorem setRdata_res (b : Byte) : (s.setRdata b).res = { s.res with rdata := some b } := rfl
@[simp] theorem setRdata_trace (b : Byte) : (s.setRdata b).trace = s.trace := rfl

/-! `State.emit` -/

@[simp] theorem emit_regs (d : Diag) : (s.emit d).regs = s.regs := rfl
@[simp] theorem emit_sel (d : Diag) : (s.emit d).sel = s.sel := rfl
@[simp] theorem emit_idx (d : Diag) : (s.emit d).idx = s.idx := rfl
@[simp] theorem emit_last (d : Diag) : (s.emit d).last = s.last := rfl
@[simp] theorem emit_devAddr (d : Diag) : (s.emit d).devAddr = s.devAddr := rfl
@[simp] theorem emit_env (d : Diag) : (s.emit d).env = s.env := rfl
@[simp] theorem emit_inbox (d : Diag) : (s.emit d).inbox = s.inbox := rfl
@[simp] theorem emit_draws (d : Diag) : (s.emit d).draws = s.draws := rfl
@[simp] theorem emit_res (d : Diag) : (s.emit d).res = s.res := rfl
@[simp] theorem emit_trace (d : Diag) : (s.emit d).trace = s.trace ++ [d] := rfl

/-! `State.raise` -/

@[simp] theorem raise_regs (e : ProtocolError) : (s.raise e).regs = s.regs := rfl
@[simp] theorem raise_sel (e : ProtocolError) : (s.raise e).sel = s.sel := rfl
@[simp] theorem raise_idx (e : ProtocolError) : (s.raise e).idx = s.idx := rfl
@[simp] theorem raise_last (e : ProtocolError) : (s.raise e).last = s.last := rfl
@[simp] theorem raise_devAddr (e : ProtocolError) : (s.raise e).devAddr = s.devAddr := rfl
@[simp] theorem raise_env (e : ProtocolError) : (s.raise e).env = s.env := rfl
@[simp] theorem raise_inbox (e : ProtocolError) : (s.raise e).inbox = s.inbox := rfl
@[simp] theorem raise_draws (e : ProtocolError) : (s.raise e).draws = s.draws := rfl
@[simp] theorem raise_res (e : ProtocolError) : (s.raise e).res = { s.res with err := e.code } := rfl
@[simp] theorem raise_trace (e : ProtocolError) : (s.raise e).trace = s.trace ++ [.error e] := rfl

/-! `State.setCursor` -/

@[simp] theorem setCursor_regs (r : Reg) : (s.setCursor r).regs = s.regs := rfl
@[simp] theorem setCursor_sel (r : Reg) : (s.setCursor r).sel = some r := rfl
@[simp] theorem setCursor_idx (r : Reg) : (s.setCursor r).idx = r.width - 1 := rfl
@[simp] theorem setCursor_last (r : Reg) : (s.setCursor r).last = s.last := rfl
@[simp] theorem setCursor_devAddr (r : Reg) : (s.setCursor r).devAddr = s.devAddr := rfl
@[simp] theorem setCursor_env (r : Reg) : (s.setCursor r).env = s.env := rfl
@[simp] theorem setCursor_inbox (r : Reg) : (s.setCursor r).inbox = s.inbox := rfl
@[simp] theorem setCursor_draws (r : Reg) : (s.setCursor r).draws = s.draws := rfl
@[simp] theorem setCursor_res (r : Reg) : (s.setCursor r).res = s.res := rfl
@[simp] theorem setCursor_trace (r : Reg) : (s.setCursor r).trace = s.trace := rfl

/-! `State.memWrite` -/

@[simp] theorem memWrite_regs (r : Reg) (i : Nat) (b : Byte) : (s.memWrite r i b).regs = s.regs.set r ((s.regs.get r ||| (b.setWidth 16 <<< (8 * i))) &&& widthMask r) := rfl
@[simp] theorem memWrite_sel (r : Reg) (i : Nat) (b : Byte) : (s.memWrite r i b).sel = s.sel := rfl
@[simp] theorem memWrite_idx (r : Reg) (i : Nat) (b : Byte) : (s.memWrite r i b).idx = s.idx := rfl
@[simp] theorem memWrite_last (r : Reg) (i : Nat) (b : Byte) : (s.memWrite r i b).last = s.last := rfl
@[simp] theorem memWrite_devAddr (r : Reg) (i : Nat) (b : Byte) : (s.memWrite r i b).devAddr = s.devAddr := rfl
@[simp] theorem memWrite_env (r : Reg) (i : Nat) (b : Byte) : (s.memWrite r i b).env = s.env := rfl
@[simp] theorem memWrite_inbox (r : Reg) (i : Nat) (b : Byte) : (s.memWrite r i b).inbox = s.inbox := rfl
@[simp] theorem memWrite_draws (r : Reg) (i : Nat) (b : Byte) : (s.memWrite r i b).draws = s.draws := rfl
@[simp] theorem memWrite_res (r : Reg) (i : Nat) (b : Byte) : (s.memWrite r i b).res = s.res := rfl
@[simp] theorem memWrite_trace (r : Reg) (i : Nat) (b : Byte) : (s.memWrite r i b).trace = s.trace := rfl

/-! `State.accept` -/

@[simp] theorem accept_regs (a : Arrival) (l : List Arrival) : (s.accept a l).regs = s.regs := rfl
@[simp] theorem accept_sel (a : Arrival) (l : List Arrival) : (s.accept a l).sel = s.sel := rfl
@[simp] theorem accept_idx (a : Arrival) (l : List Arrival) : (s.accept a l).idx = s.idx := rfl
@[simp] theorem accept_last (a : Arrival) (l : List Arrival) : (s.accept a l).last = s.last := rfl
@[simp] theorem accept_devAddr (a : Arrival) (l : List Arrival) : (s.accept a l).devAddr = s.devAddr := rfl
@[simp] theorem accept_env (a : Arrival) (l : List Arrival) : (s.accept a l).env = a.env := rfl
@[simp] theorem accept_inbox (a : Arrival) (l : List Arrival) : (s.accept a l).inbox = l := rfl
@[simp] theorem accept_draws (a : Arrival) (l : List Arrival) : (s.accept a l).draws = s.draws := rfl
@[simp] theorem accept_res (a : Arrival) (l : List Arrival) : (s.accept a l).res = s.res := rfl
@[simp] theorem accept_trace (a : Arrival) (l : List Arrival) : (s.accept a l).trace = s.trace := rfl

/-! `State.advance` -/

@[simp] theorem advance_regs : s.advance.regs = s.regs := by
  unfold State.advance; split <;> rfl
@[simp] theorem advance_sel : s.advance.sel = if s.idx = 0 then none else s.sel := by
  unfold State.advance; split <;> simp_all
@[simp] theorem advance_idx : s.advance.idx = s.idx - 1 := by
  unfold State.advance; split <;> simp_all
@[simp] theorem advance_last : s.advance.last = s.last := by
  unfold State.advance; split <;> rfl
@[simp] theorem advance_devAddr : s.advance.devAddr = s.devAddr := by
  unfold State.advance; split <;> rfl
@[simp] theorem advance_env : s.advance.env = s.env := by
  unfold State.advance; split <;> rfl
@[simp] theorem advance_inbox : s.advance.inbox = s.inbox := by
  unfold State.advance; split <;> rfl
@[simp] theorem advance_draws : s.advance.draws = s.draws := by
  unfold State.advance; split <;> rfl
@[simp] theorem advance_res : s.advance.res = s.res := by
  unfold State.advance; split <;> rfl
@[simp] theorem advance_trace : s.advance.trace = s.trace := by
  unfold State.advance; split <;> rfl

/-! `State.warnReadOnly` -/

@[simp] theorem warnReadOnly_regs (r : Reg) : (s.warnReadOnly r).regs = s.regs := by
  unfold State.warnReadOnly; split <;> rfl
@[simp] theorem warnReadOnly_sel (r : Reg) : (s.warnReadOnly r).sel = s.sel := by
  unfold State.warnReadOnly; split <;> rfl
@[simp] theorem warnReadOnly_idx (r : Reg) : (s.warnReadOnly r).idx = s.idx := by
  unfold State.warnReadOnly; split <;> rfl
@[simp] theorem warnReadOnly_last (r : Reg) : (s.warnReadOnly r).last = s.last := by
  unfold State.warnReadOnly; split <;> rfl
@[simp] theorem warnReadOnly_devAddr (r : Reg) : (s.warnReadOnly r).devAddr = s.devAddr := by
  unfold State.warnReadOnly; split <;> rfl
@[simp] theorem warnReadOnly_env (r : Reg) : (s.warnReadOnly r).env = s.env := by
  unfold State.warnReadOnly; split <;> rfl
@[simp] theorem warnReadOnly_inbox (r : Reg) : (s.warnReadOnly r).inbox = s.inbox := by
  unfold State.warnReadOnly; split <;> rfl
@[simp] theorem warnReadOnly_draws (r : Reg) : (s.warnReadOnly r).draws = s.draws := by
  unfold State.warnReadOnly; split <;> rfl
@[simp] theorem warnReadOnly_res (r : Reg) : (s.warnReadOnly r).res = if r.readOnly then { s.res with err := 3 } else s.res := by
  unfold State.warnReadOnly; split <;> rfl
@[simp] theorem warnReadOnly_trace (r : Reg) : (s.warnReadOnly r).trace = if r.readOnly then s.trace ++ [.error (.roWrite r)] else s.trace := by
  unfold State.warnReadOnly; split <;> rfl

/-! `State.busState` -/

@[simp] theorem busState_of_none (h : s.sel = none) : s.busState = .idle := by simp [State.busState, h]

@[simp] theorem busState_of_some (r : Reg) (h : s.sel = some r) : s.busState = .registerSelected := by simp [State.busState, h]

end Sys2Proof.Machine
end

