-- ==== Sys2Proof/Laws/Registers.lean ====
section
/-! SUPPORT. Read-after-write laws of the register file: by register, by bit, by byte. -/

namespace Sys2Proof.Machine

theorem width_le_two (r : Reg) : r.width ≤ 2 := by cases r <;> decide

theorem width_pos (r : Reg) : 0 < r.width := by cases r <;> decide

@[simp] theorem widthMask_getLsbD (r : Reg) (k : Nat) : (widthMask r).getLsbD k = decide (k < 8 * r.width) := by
  have := width_le_two r
  simp only [widthMask, BitVec.getLsbD_ofNat, Nat.testBit_two_pow_sub_one, Bool.and_eq_decide, decide_eq_true_eq]
  congr 1
  exact propext ⟨fun h => h.2, fun h => ⟨by omega, h⟩⟩

/-- No bit of a register value lies above its width (`10_state.md` R12). -/
theorem get_getLsbD_above (x : Regs) (r : Reg) (k : Nat) (h : 8 * r.width ≤ k) : (x.get r).getLsbD k = false := by
  cases r <;> simp only [Reg.width] at h <;> simp only [Regs.get]
  case resolution => rw [BitVec.getLsbD_setWidth, BitVec.getLsbD_of_ge _ _ h, Bool.and_false]
  all_goals exact BitVec.getLsbD_of_ge _ _ h

@[simp] theorem get_set_same (x : Regs) (r : Reg) (v : Half) : (x.set r v).get r = v &&& widthMask r := by
  apply BitVec.eq_of_getLsbD_eq
  intro k hk
  rw [BitVec.getLsbD_and, widthMask_getLsbD]
  cases r <;> simp [Regs.get, Regs.set, Reg.width, hk, Bool.and_comm]

theorem get_set_other (x : Regs) (r r' : Reg) (v : Half) (h : r' ≠ r) : (x.set r v).get r' = x.get r' := by
  cases r <;> cases r' <;> first | rfl | exact absurd rfl h

/-- A bit of the register just written by `MemWrite` (`20_memory.md` R42). -/
theorem memWrite_getLsbD_same (s : State) (r : Reg) (i : Nat) (b : Byte) (k : Nat) :
    ((s.memWrite r i b).regs.get r).getLsbD k =
      ((s.regs.get r).getLsbD k || (decide (k < 8 * r.width) && decide (8 * i ≤ k) && b.getLsbD (k - 8 * i))) := by
  have hw := width_le_two r
  by_cases hk : k < 8 * r.width
  · have : k < 16 := by omega
    by_cases h8 : 8 * i ≤ k
    · simp [hk, h8, show k < 16 by omega, show ¬ k < 8 * i by omega]
    · simp [hk, h8, show k < 8 * i by omega]
  · simp [hk, get_getLsbD_above s.regs r k (by omega)]

theorem memWrite_get_other (s : State) (r r' : Reg) (i : Nat) (b : Byte) (h : r' ≠ r) :
    (s.memWrite r i b).regs.get r' = s.regs.get r' := by
  simp [get_set_other _ _ _ _ h]

@[simp] theorem memRead_getLsbD (s : State) (r : Reg) (i k : Nat) :
    (s.memRead r i).getLsbD k = (decide (k < 8) && (s.regs.get r).getLsbD (8 * i + k)) := by
  simp [State.memRead]

/-- A byte read depends on its register alone. -/
theorem memRead_congr {s t : State} {r : Reg} (h : s.regs.get r = t.regs.get r) (i : Nat) : s.memRead r i = t.memRead r i := by
  simp [State.memRead, h]

/-- Reading the byte just written gives the old byte ORed with the written one (`20_memory.md` R41, R42). -/
theorem memRead_memWrite_same (s : State) (r : Reg) (i : Nat) (b : Byte) (h : i < r.width) :
    (s.memWrite r i b).memRead r i = s.memRead r i ||| b := by
  apply BitVec.eq_of_getLsbD_eq
  intro k hk
  rw [BitVec.getLsbD_or, memRead_getLsbD, memRead_getLsbD, memWrite_getLsbD_same]
  simp [hk, show 8 * i + k < 8 * r.width by omega]

/-- A byte write leaves every other byte of the register file alone. -/
theorem memRead_memWrite_other (s : State) (r r' : Reg) (i i' : Nat) (b : Byte) (h : (r', i') ≠ (r, i)) :
    (s.memWrite r i b).memRead r' i' = s.memRead r' i' := by
  apply BitVec.eq_of_getLsbD_eq
  intro k hk
  by_cases hr : r' = r
  · subst hr
    have hi : i' ≠ i := fun e => h (by rw [e])
    rw [memRead_getLsbD, memRead_getLsbD, memWrite_getLsbD_same]
    rcases Nat.lt_or_gt_of_ne hi with hlt | hgt
    · simp [show ¬ 8 * i ≤ 8 * i' + k by omega]
    · rw [BitVec.getLsbD_of_ge b _ (by omega)]; simp
  · simp only [memRead_getLsbD, memWrite_get_other s r r' i b hr]

/-- Register files are equal when every register reads the same. -/
theorem Regs.ext_get {x y : Regs} (h : ∀ r, x.get r = y.get r) : x = y := by
  have hres : x.resolution = y.resolution := by
    have := congrArg (BitVec.setWidth 8) (h .resolution)
    simpa [Regs.get] using this
  have h1 := h .config
  have h2 := h .upperTemp
  have h3 := h .lowerTemp
  have h4 := h .critTemp
  have h5 := h .ambientTemp
  have h6 := h .manufId
  have h7 := h .deviceId
  cases x; cases y; simp_all [Regs.get]

end Sys2Proof.Machine
end

