-- ==== Sys2Proof/Laws/Sampler.lean ====
section
/-! SUPPORT. What the sampler can do, and what it leaves alone. -/

namespace Sys2Proof.Machine

variable (s : State)

/-- Skipping writes nothing (`41_temperature_sampler.md` R93). -/
theorem sample_of_skips (h : s.gateSkips = true) : s.sample = s := by simp [State.sample, h]

/-- What a sample taken writes (`41_temperature_sampler.md` R100). -/
theorem sample_of_taken (h : s.gateSkips = false) :
    s.sample = { s with
      last := some s.env.now
      draws := s.drawsAfterConversion
      regs := s.regs.set .ambientTemp
        (composeAmbient (critFlag s.rawSample s.regs.critTemp) upperFlag lowerFlag s.rawSample) } := by
  simp [State.sample, h]

theorem gateSkips_of_never (h : s.last = none) : s.gateSkips = false := by simp [State.gateSkips, h]

@[simp] theorem sample_sel : s.sample.sel = s.sel := by unfold State.sample; split <;> rfl
@[simp] theorem sample_idx : s.sample.idx = s.idx := by unfold State.sample; split <;> rfl
@[simp] theorem sample_devAddr : s.sample.devAddr = s.devAddr := by unfold State.sample; split <;> rfl
@[simp] theorem sample_env : s.sample.env = s.env := by unfold State.sample; split <;> rfl
@[simp] theorem sample_inbox : s.sample.inbox = s.inbox := by unfold State.sample; split <;> rfl
@[simp] theorem sample_res : s.sample.res = s.res := by unfold State.sample; split <;> rfl
@[simp] theorem sample_trace : s.sample.trace = s.trace := by unfold State.sample; split <;> rfl

/-- The sampler writes no register but AMBIENT_TEMP. -/
theorem sample_get_other (r : Reg) (h : r ≠ .ambientTemp) : s.sample.regs.get r = s.regs.get r := by
  unfold State.sample
  split
  · rfl
  · exact get_set_other _ _ _ _ h

/-- After a select some sample has been taken, at the time present or before. -/
theorem sample_last_cases : s.sample.last = s.last ∧ s.last ≠ none ∨ s.sample.last = some s.env.now := by
  by_cases h : s.gateSkips = true
  · refine .inl ⟨by rw [sample_of_skips s h], fun hn => ?_⟩
    rw [gateSkips_of_never s hn] at h
    cases h
  · exact .inr (by rw [sample_of_taken s (by simpa using h)])

/-- The sampler reads neither the result nor the trace. -/
theorem beginEvent_sample : s.beginEvent.sample = s.sample.beginEvent := by
  unfold State.sample
  rw [show s.beginEvent.gateSkips = s.gateSkips from rfl]
  split <;> rfl

/-- AMBIENT_TEMP as a number: the flags above the low 13 bits of the raw value (`41_temperature_sampler.md` R99). -/
theorem composeAmbient_eq_ofNat (c : BitVec 1) (raw : Half) :
    composeAmbient c upperFlag lowerFlag raw = BitVec.ofNat 16 (c.toNat * 2 ^ 15 + raw.toNat % 2 ^ 13) := by
  have hr : raw.toNat % 2 ^ 13 < 2 ^ 13 := Nat.mod_lt _ (by decide)
  have hc := c.isLt
  apply BitVec.eq_of_toNat_eq
  show (c ++ (0#1 ++ (0#1 ++ raw.extractLsb' 0 13 : BitVec (1 + 13)) : BitVec (1 + (1 + 13))) :
    BitVec (1 + (1 + (1 + 13)))).toNat = _
  rw [BitVec.toNat_append, BitVec.toNat_append, BitVec.toNat_append]
  simp only [BitVec.extractLsb'_toNat, Nat.shiftRight_zero, BitVec.toNat_ofNat, Nat.zero_mod, Nat.zero_shiftLeft, Nat.zero_or]
  rw [← Nat.shiftLeft_add_eq_or_of_lt (by omega), Nat.shiftLeft_eq]
  omega

/-- The critical flag is bit 15 (`10_state.md` R18). -/
theorem composeAmbient_bit15 (c : BitVec 1) (raw : Half) :
    (composeAmbient c upperFlag lowerFlag raw).getLsbD 15 = c.getLsbD 0 := by
  show (c ++ (0#1 ++ (0#1 ++ raw.extractLsb' 0 13 : BitVec (1 + 13)) : BitVec (1 + (1 + 13))) :
    BitVec (1 + (1 + (1 + 13)))).getLsbD 15 = _
  rw [BitVec.getLsbD_append]
  rfl

/-- TA is the low 13 bits of the raw value (`10_state.md` R18). -/
theorem composeAmbient_ta (c : BitVec 1) (raw : Half) :
    (composeAmbient c upperFlag lowerFlag raw).extractLsb' 0 13 = raw.extractLsb' 0 13 := by
  apply BitVec.eq_of_getLsbD_eq
  intro i hi
  rw [BitVec.getLsbD_extractLsb']
  show (_ && (c ++ (0#1 ++ (0#1 ++ raw.extractLsb' 0 13 : BitVec (1 + 13)) : BitVec (1 + (1 + 13))) :
    BitVec (1 + (1 + (1 + 13)))).getLsbD (0 + i)) = _
  rw [BitVec.getLsbD_append, BitVec.getLsbD_append, BitVec.getLsbD_append]
  simp [hi, show i < 14 by omega, show i < 15 by omega]

/-- The value a sample taken leaves in AMBIENT_TEMP. -/
theorem sample_ambient_of_taken (h : s.gateSkips = false) :
    s.sample.regs.ambientTemp =
      composeAmbient (critFlag s.rawSample s.regs.critTemp) upperFlag lowerFlag s.rawSample := by
  rw [sample_of_taken s h]
  rfl

/-- RES as a number (`10_state.md` R21). -/
theorem res_toNat (x : Regs) : x.res.toNat = x.resolution.toNat % 4 := by
  simp [Regs.res, BitVec.extractLsb'_toNat]

/-- The gate reads only `last`, the time and RESOLUTION[1:0]. -/
theorem gateSkips_congr {t : State} (hl : t.last = s.last) (he : t.env = s.env)
    (hr : t.regs.resolution.toNat % 4 = s.regs.resolution.toNat % 4) : t.gateSkips = s.gateSkips := by
  have : t.regs.res = s.regs.res := BitVec.eq_of_toNat_eq (by rw [res_toNat, res_toNat, hr])
  simp [State.gateSkips, hl, he, this]

end Sys2Proof.Machine
end

