-- ==== Sys2Proof/Laws/Ops.lean ====
section
/-! SUPPORT. What each event of the transaction machine leaves in each field of State. -/

namespace Sys2Proof.Machine

variable (s : State)

/-- States are equal when their fields are. -/
theorem State.eq_of_fields {s t : State} (regs : s.regs = t.regs) (sel : s.sel = t.sel) (idx : s.idx = t.idx)
    (last : s.last = t.last) (devAddr : s.devAddr = t.devAddr) (env : s.env = t.env) (inbox : s.inbox = t.inbox)
    (draws : s.draws = t.draws) (res : s.res = t.res) (trace : s.trace = t.trace) : s = t := by
  cases s; cases t; simp_all

/-! `State.selectRegister` (`42_bus_transactions.md` R124) -/

@[simp] theorem selectRegister_regs (r : Reg) : (s.selectRegister r).regs = s.sample.regs := by
  simp [State.selectRegister, beginEvent_sample]
@[simp] theorem selectRegister_sel (r : Reg) : (s.selectRegister r).sel = some r := by
  simp [State.selectRegister, beginEvent_sample]
@[simp] theorem selectRegister_idx (r : Reg) : (s.selectRegister r).idx = r.width - 1 := by
  simp [State.selectRegister, beginEvent_sample]
@[simp] theorem selectRegister_last (r : Reg) : (s.selectRegister r).last = s.sample.last := by
  simp [State.selectRegister, beginEvent_sample]
@[simp] theorem selectRegister_devAddr (r : Reg) : (s.selectRegister r).devAddr = s.devAddr := by
  simp [State.selectRegister, beginEvent_sample]
@[simp] theorem selectRegister_env (r : Reg) : (s.selectRegister r).env = s.env := by
  simp [State.selectRegister, beginEvent_sample]
@[simp] theorem selectRegister_inbox (r : Reg) : (s.selectRegister r).inbox = s.inbox := by
  simp [State.selectRegister, beginEvent_sample]
@[simp] theorem selectRegister_draws (r : Reg) : (s.selectRegister r).draws = s.sample.draws := by
  simp [State.selectRegister, beginEvent_sample]
@[simp] theorem selectRegister_res (r : Reg) : (s.selectRegister r).res = ⟨some true, none, 0⟩ := by
  simp [State.selectRegister, beginEvent_sample, Result.empty]
@[simp] theorem selectRegister_trace (r : Reg) : (s.selectRegister r).trace = s.trace ++ [.select r] := by
  simp [State.selectRegister, beginEvent_sample]

/-! `State.selectNothing` (`42_bus_transactions.md` R125) -/

@[simp] theorem selectNothing_regs (b : Byte) : (s.selectNothing b).regs = s.sample.regs := by
  simp [State.selectNothing, beginEvent_sample]
@[simp] theorem selectNothing_sel (b : Byte) : (s.selectNothing b).sel = s.sel := by
  simp [State.selectNothing, beginEvent_sample]
@[simp] theorem selectNothing_idx (b : Byte) : (s.selectNothing b).idx = s.idx := by
  simp [State.selectNothing, beginEvent_sample]
@[simp] theorem selectNothing_last (b : Byte) : (s.selectNothing b).last = s.sample.last := by
  simp [State.selectNothing, beginEvent_sample]
@[simp] theorem selectNothing_devAddr (b : Byte) : (s.selectNothing b).devAddr = s.devAddr := by
  simp [State.selectNothing, beginEvent_sample]
@[simp] theorem selectNothing_env (b : Byte) : (s.selectNothing b).env = s.env := by
  simp [State.selectNothing, beginEvent_sample]
@[simp] theorem selectNothing_inbox (b : Byte) : (s.selectNothing b).inbox = s.inbox := by
  simp [State.selectNothing, beginEvent_sample]
@[simp] theorem selectNothing_draws (b : Byte) : (s.selectNothing b).draws = s.sample.draws := by
  simp [State.selectNothing, beginEvent_sample]
@[simp] theorem selectNothing_res (b : Byte) : (s.selectNothing b).res = ⟨some true, none, 1⟩ := by
  simp [State.selectNothing, beginEvent_sample, ProtocolError.code, Result.empty]
@[simp] theorem selectNothing_trace (b : Byte) : (s.selectNothing b).trace = s.trace ++ [.error (.invalidRegister b)] := by
  simp [State.selectNothing, beginEvent_sample]

/-! `State.transferIn` (`42_bus_transactions.md` R126) -/

@[simp] theorem transferIn_regs (r : Reg) (b : Byte) : (s.transferIn r b).regs = (s.memWrite r s.idx b).regs := by
  simp [State.transferIn]
@[simp] theorem transferIn_sel (r : Reg) (b : Byte) : (s.transferIn r b).sel = if s.idx = 0 then none else s.sel := by
  simp [State.transferIn]
@[simp] theorem transferIn_idx (r : Reg) (b : Byte) : (s.transferIn r b).idx = s.idx - 1 := by
  simp [State.transferIn]
@[simp] theorem transferIn_last (r : Reg) (b : Byte) : (s.transferIn r b).last = s.last := by
  simp [State.transferIn]
@[simp] theorem transferIn_devAddr (r : Reg) (b : Byte) : (s.transferIn r b).devAddr = s.devAddr := by
  simp [State.transferIn]
@[simp] theorem transferIn_env (r : Reg) (b : Byte) : (s.transferIn r b).env = s.env := by
  simp [State.transferIn]
@[simp] theorem transferIn_inbox (r : Reg) (b : Byte) : (s.transferIn r b).inbox = s.inbox := by
  simp [State.transferIn]
@[simp] theorem transferIn_draws (r : Reg) (b : Byte) : (s.transferIn r b).draws = s.draws := by
  simp [State.transferIn]
@[simp] theorem transferIn_res (r : Reg) (b : Byte) : (s.transferIn r b).res = ⟨some true, none, if r.readOnly then 3 else 0⟩ := by
  cases r <;> simp [State.transferIn, Result.empty, Reg.readOnly]
@[simp] theorem transferIn_trace (r : Reg) (b : Byte) : (s.transferIn r b).trace = if r.readOnly then s.trace ++ [.write r s.idx b] ++ [.error (.roWrite r)] else s.trace ++ [.write r s.idx b] := by
  simp [State.transferIn]

/-! `State.transferOut` (`42_bus_transactions.md` R127) -/

@[simp] theorem transferOut_regs (r : Reg) : (s.transferOut r).regs = s.regs := by
  simp [State.transferOut]
@[simp] theorem transferOut_sel (r : Reg) : (s.transferOut r).sel = if s.idx = 0 then none else s.sel := by
  simp [State.transferOut]; rfl
@[simp] theorem transferOut_idx (r : Reg) : (s.transferOut r).idx = s.idx - 1 := by
  simp [State.transferOut]
@[simp] theorem transferOut_last (r : Reg) : (s.transferOut r).last = s.last := by
  simp [State.transferOut]
@[simp] theorem transferOut_devAddr (r : Reg) : (s.transferOut r).devAddr = s.devAddr := by
  simp [State.transferOut]
@[simp] theorem transferOut_env (r : Reg) : (s.transferOut r).env = s.env := by
  simp [State.transferOut]
@[simp] theorem transferOut_inbox (r : Reg) : (s.transferOut r).inbox = s.inbox := by
  simp [State.transferOut]
@[simp] theorem transferOut_draws (r : Reg) : (s.transferOut r).draws = s.draws := by
  simp [State.transferOut]
@[simp] theorem transferOut_res (r : Reg) : (s.transferOut r).res = ⟨none, some (s.memRead r s.idx), 0⟩ := by
  simp [State.transferOut, Result.empty]
@[simp] theorem transferOut_trace (r : Reg) : (s.transferOut r).trace = s.trace ++ [.read r s.idx (s.memRead r s.idx)] := by
  simp [State.transferOut]

/-! `State.readNothing` (`42_bus_transactions.md` R128) -/

@[simp] theorem readNothing_regs : s.readNothing.regs = s.regs := by
  simp [State.readNothing]
@[simp] theorem readNothing_sel : s.readNothing.sel = s.sel := by
  simp [State.readNothing]
@[simp] theorem readNothing_idx : s.readNothing.idx = s.idx := by
  simp [State.readNothing]
@[simp] theorem readNothing_last : s.readNothing.last = s.last := by
  simp [State.readNothing]
@[simp] theorem readNothing_devAddr : s.readNothing.devAddr = s.devAddr := by
  simp [State.readNothing]
@[simp] theorem readNothing_env : s.readNothing.env = s.env := by
  simp [State.readNothing]
@[simp] theorem readNothing_inbox : s.readNothing.inbox = s.inbox := by
  simp [State.readNothing]
@[simp] theorem readNothing_draws : s.readNothing.draws = s.draws := by
  simp [State.readNothing]
@[simp] theorem readNothing_res : s.readNothing.res = ⟨none, some 0xFF, 2⟩ := by
  simp [State.readNothing, idleReadValue, ProtocolError.code, Result.empty]
@[simp] theorem readNothing_trace : s.readNothing.trace = s.trace ++ [.error .noRegisterSelected] := by
  simp [State.readNothing]

end Sys2Proof.Machine
end

