-- ==== Sys2Proof/Laws/PerInstr.lean ====
section
/-! SUPPORT. What is said of every instruction as syntax: its word matches its row of spec/opcode_table.json. -/

namespace Sys2Proof.Laws

/-- The encoding of a well-formed instruction, masked with its row's mask, is its row's match. -/
def MatchesTableRow.Statement (i : Instr) : Prop := i.wellFormed = true → encode i &&& i.tableMask = i.tableMatch

/-- A patterned select byte masks to its row's value. -/
theorem writeWord_and_of_matches {value mask p : Byte} (h : matchesPattern value mask p = true) :
    writeWord p &&& (0b11#2 ++ mask : EventWord) = writeWord value := by
  rw [writeWord, eventWord_and, beq_iff_eq.mp h]
  rfl

theorem MatchesTableRow.connect (a : BitVec 7) (d : Bool) : MatchesTableRow.Statement (.connect a d) := fun _ => (eventWord_and _ _ 0x00).trans (by rw [BitVec.and_comm]; simp; rfl)

theorem MatchesTableRow.selConfig : MatchesTableRow.Statement .selConfig := fun _ => by decide

theorem MatchesTableRow.selUpperTemp : MatchesTableRow.Statement .selUpperTemp := fun _ => by decide

theorem MatchesTableRow.selLowerTemp : MatchesTableRow.Statement .selLowerTemp := fun _ => by decide

theorem MatchesTableRow.selCritTemp : MatchesTableRow.Statement .selCritTemp := fun _ => by decide

theorem MatchesTableRow.selAmbientTemp : MatchesTableRow.Statement .selAmbientTemp := fun _ => by decide

theorem MatchesTableRow.selManufId : MatchesTableRow.Statement .selManufId := fun _ => by decide

theorem MatchesTableRow.selDeviceId : MatchesTableRow.Statement .selDeviceId := fun _ => by decide

theorem MatchesTableRow.selResolution : MatchesTableRow.Statement .selResolution := fun _ => by decide

theorem MatchesTableRow.selInvalid00 : MatchesTableRow.Statement .selInvalid00 := fun _ => by decide

theorem MatchesTableRow.selInvalid09 : MatchesTableRow.Statement .selInvalid09 := fun _ => by decide

theorem MatchesTableRow.selInvalid0Ato0B (p : Byte) : MatchesTableRow.Statement (.selInvalid0Ato0B p) := writeWord_and_of_matches

theorem MatchesTableRow.selInvalid0Cto0F (p : Byte) : MatchesTableRow.Statement (.selInvalid0Cto0F p) := writeWord_and_of_matches

theorem MatchesTableRow.selInvalid10to1F (p : Byte) : MatchesTableRow.Statement (.selInvalid10to1F p) := writeWord_and_of_matches

theorem MatchesTableRow.selInvalid20to3F (p : Byte) : MatchesTableRow.Statement (.selInvalid20to3F p) := writeWord_and_of_matches

theorem MatchesTableRow.selInvalid40to7F (p : Byte) : MatchesTableRow.Statement (.selInvalid40to7F p) := writeWord_and_of_matches

theorem MatchesTableRow.selInvalid80toFF (p : Byte) : MatchesTableRow.Statement (.selInvalid80toFF p) := writeWord_and_of_matches

theorem MatchesTableRow.writeData (b : Byte) : MatchesTableRow.Statement (.writeData b) := fun _ => (eventWord_and _ _ 0x00).trans (by rw [BitVec.and_comm]; simp; rfl)

theorem MatchesTableRow.readData : MatchesTableRow.Statement .readData := fun _ => by decide

theorem MatchesTableRow.readIdle : MatchesTableRow.Statement .readIdle := fun _ => by decide

theorem MatchesTableRow.disconnect : MatchesTableRow.Statement .disconnect := fun _ => by decide

end Sys2Proof.Laws
end

