-- ==== Sys2Proof/Laws/Step.lean ====
section
/-! SUPPORT. What one step does, by the kind of its event and the state of the transaction machine, and what it can do. -/

namespace Sys2Proof.Machine

theorem ofPointer_pointer (r : Reg) : Reg.ofPointer r.pointer = some r := by cases r <;> decide

theorem pointer_of_ofPointer {b : Byte} {r : Reg} (h : Reg.ofPointer b = some r) : r.pointer = b := by
  unfold Reg.ofPointer at h
  repeat' split at h
  all_goals first | (cases h; simp_all [Reg.pointer]) | cases h

/-- A pointer names a register exactly when it is 1 to 8 (`20_memory.md` R49). -/
theorem ofPointer_eq_none_iff (b : Byte) : Reg.ofPointer b = none ↔ ¬(1 ≤ b.toNat ∧ b.toNat ≤ 8) := by
  unfold Reg.ofPointer
  repeat' split
  all_goals simp_all [BitVec.toNat_eq]
  omega

/-- The select byte `b`, decoded and run while Idle: R124 where it names a register, R125 where it does not. -/
theorem exec_decodeSelect (s : State) (b : Byte) (h : s.sel = none) :
    exec (decodeSelect b) s =
      .next (match Reg.ofPointer b with | some r => s.selectRegister r | none => s.selectNothing b) := by
  cases hp : Reg.ofPointer b with
  | some r =>
    have hb := pointer_of_ofPointer hp
    subst hb
    cases r <;> simp [Reg.pointer, decodeSelect, exec, whileIdle, h, execSelConfig, execSelUpperTemp, execSelLowerTemp,
      execSelCritTemp, execSelAmbientTemp, execSelManufId, execSelDeviceId, execSelResolution]
  | none =>
    show exec (decodeSelect b) s = .next (s.selectNothing b)
    have ne (r : Reg) : b ≠ r.pointer := fun e => by rw [e, ofPointer_pointer] at hp; cases hp
    rw [decodeSelect, if_neg (show b ≠ 0x01#8 from ne .config), if_neg (show b ≠ 0x02#8 from ne .upperTemp),
      if_neg (show b ≠ 0x03#8 from ne .lowerTemp), if_neg (show b ≠ 0x04#8 from ne .critTemp),
      if_neg (show b ≠ 0x05#8 from ne .ambientTemp), if_neg (show b ≠ 0x06#8 from ne .manufId),
      if_neg (show b ≠ 0x07#8 from ne .deviceId), if_neg (show b ≠ 0x08#8 from ne .resolution)]
    repeat' split
    all_goals simp [*, exec, whileIdle, execSelInvalid00, execSelInvalid09, execSelInvalid0Ato0B, execSelInvalid0Cto0F,
      execSelInvalid10to1F, execSelInvalid20to3F, execSelInvalid40to7F, execSelInvalid80toFF]

@[simp] theorem step_nil (s : State) (h : s.inbox = []) : step s = .next s := by simp [step, h]

theorem step_cons (s : State) (a : Arrival) (rest : List Arrival) (h : s.inbox = a :: rest) :
    step s = exec (decode s.busState a.word) (s.accept a rest) := by simp [step, h]

/-- The event of a word, by its kind (`30_encoding.md` R72). -/
theorem decodeEvent_cases (w : EventWord) :
    (kindOf w = 0b00#2 ∧ ∃ a d, decodeEvent w = .connect a d) ∨
    (kindOf w = 0b01#2 ∧ w = writeWord (payloadOf w) ∧ decodeEvent w = .write (payloadOf w)) ∨
    (kindOf w = 0b10#2 ∧ decodeEvent w = .read) ∨ (kindOf w = 0b11#2 ∧ decodeEvent w = .disconnect) := by
  have hk : kindOf w = 0b00#2 ∨ kindOf w = 0b01#2 ∨ kindOf w = 0b10#2 ∨ kindOf w = 0b11#2 := by
    generalize kindOf w = k
    revert k; decide
  rcases hk with h | h | h | h
  · exact .inl ⟨h, _, _, by simp [decodeEvent, h]; exact ⟨rfl, rfl⟩⟩
  · exact .inr (.inl ⟨h, by rw [writeWord, ← h, kind_append_payload], by simp [decodeEvent, h]⟩)
  · exact .inr (.inr (.inl ⟨h, by simp [decodeEvent, h]⟩))
  · exact .inr (.inr (.inr ⟨h, by simp [decodeEvent, h]⟩))

/-- Everything a step can do, by the event delivered and the selected register (`42_bus_transactions.md` R120); `u` is the state with
the event delivered. -/
theorem step_cases {s t : State} (h : step s = .next t) :
    (s.inbox = [] ∧ t = s) ∨
    ∃ a rest u, s.inbox = a :: rest ∧ u = s.accept a rest ∧
      ((kindOf a.word = 0b00#2 ∧ t = u.beginEvent.acknowledge) ∨
       (∃ r, kindOf a.word = 0b01#2 ∧ a.word = writeWord r.pointer ∧ s.sel = none ∧ t = u.selectRegister r) ∨
       (∃ b, kindOf a.word = 0b01#2 ∧ a.word = writeWord b ∧ s.sel = none ∧ Reg.ofPointer b = none ∧ t = u.selectNothing b) ∨
       (∃ r b, kindOf a.word = 0b01#2 ∧ a.word = writeWord b ∧ s.sel = some r ∧ t = u.transferIn r b) ∨
       (∃ r, kindOf a.word = 0b10#2 ∧ s.sel = some r ∧ t = u.transferOut r) ∨
       (kindOf a.word = 0b10#2 ∧ s.sel = none ∧ t = u.readNothing) ∨
       (kindOf a.word = 0b11#2 ∧ t = u.beginEvent)) := by
  cases hi : s.inbox with
  | nil => rw [step_nil s hi] at h; cases h; exact .inl ⟨rfl, rfl⟩
  | cons a rest =>
    refine .inr ⟨a, rest, s.accept a rest, rfl, rfl, ?_⟩
    rw [step_cons s a rest hi, decode] at h
    rcases decodeEvent_cases a.word with ⟨hk, x, d, he⟩ | ⟨hk, hw, he⟩ | ⟨hk, he⟩ | ⟨hk, he⟩
    · rw [he] at h; cases h; exact .inl ⟨hk, rfl⟩
    · rw [he] at h
      cases hs : s.sel with
      | none =>
        rw [busState_of_none s hs, decodeIn, exec_decodeSelect _ _ (by simpa using hs)] at h
        cases hp : Reg.ofPointer (payloadOf a.word) with
        | none => rw [hp] at h; cases h; exact .inr (.inr (.inl ⟨_, hk, hw, rfl, hp, rfl⟩))
        | some r =>
          rw [hp] at h; cases h
          exact .inr (.inl ⟨r, hk, by rw [pointer_of_ofPointer hp]; exact hw, rfl, rfl⟩)
      | some r =>
        rw [busState_of_some s r hs] at h
        simp [decodeIn, exec, execWriteData, whileSelected, hs] at h
        exact .inr (.inr (.inr (.inl ⟨r, _, hk, hw, rfl, h.symm⟩)))
    · rw [he] at h
      cases hs : s.sel with
      | none =>
        rw [busState_of_none s hs] at h
        simp [decodeIn, exec, execReadIdle, whileIdle, hs] at h
        exact .inr (.inr (.inr (.inr (.inr (.inl ⟨hk, rfl, h.symm⟩)))))
      | some r =>
        rw [busState_of_some s r hs] at h
        simp [decodeIn, exec, execReadData, whileSelected, hs] at h
        exact .inr (.inr (.inr (.inr (.inl ⟨r, hk, rfl, h.symm⟩))))
    · rw [he] at h; cases h; exact .inr (.inr (.inr (.inr (.inr (.inr ⟨hk, rfl⟩)))))

/-- An Idle Write of a register's pointer is its select. -/
theorem step_select (s : State) (r : Reg) (e : Env) (rest : List Arrival)
    (hi : s.inbox = ⟨writeWord r.pointer, e⟩ :: rest) (hs : s.sel = none) :
    step s = .next ((s.accept ⟨writeWord r.pointer, e⟩ rest).selectRegister r) := by
  rw [step_cons s _ rest hi, decode, decodeEvent_writeWord, busState_of_none s hs, decodeIn,
    exec_decodeSelect _ _ (by simpa using hs), ofPointer_pointer]

/-- A Write while a register is selected is data. -/
theorem step_write (s : State) (r : Reg) (b : Byte) (e : Env) (rest : List Arrival)
    (hi : s.inbox = ⟨writeWord b, e⟩ :: rest) (hs : s.sel = some r) :
    step s = .next ((s.accept ⟨writeWord b, e⟩ rest).transferIn r b) := by
  rw [step_cons s _ rest hi, decode, decodeEvent_writeWord, busState_of_some s r hs, decodeIn]
  simp [exec, execWriteData, whileSelected, hs]

/-- A Read while a register is selected returns its byte. -/
theorem step_read (s : State) (r : Reg) (a : Arrival) (rest : List Arrival)
    (hi : s.inbox = a :: rest) (hk : kindOf a.word = 0b10#2) (hs : s.sel = some r) :
    step s = .next ((s.accept a rest).transferOut r) := by
  have he : decodeEvent a.word = .read := by simp [decodeEvent, hk]
  rw [step_cons s _ rest hi, decode, he, busState_of_some s r hs, decodeIn]
  simp [exec, execReadData, whileSelected, hs]

/-- A run of `n + 1` steps is a step and a run of `n`. -/
theorem run_succ_of_step {s t : State} (n : Nat) (h : step s = .next t) :
    Host.Core.run Sys2Proof.core (n + 1) s = Host.Core.run Sys2Proof.core n t := by
  have h' : Sys2Proof.core.step s = .next t := h
  exact (Host.Core.run.eq_2 Sys2Proof.core s n).trans (by rw [h'])

theorem inbox_cases (s : State) : s.inbox = [] ∨ ∃ a rest, s.inbox = a :: rest := by
  cases s.inbox with
  | nil => exact .inl rfl
  | cons a rest => exact .inr ⟨a, rest, rfl⟩

theorem writeWord_injective {a b : Byte} (h : writeWord a = writeWord b) : a = b := by
  have := congrArg payloadOf h
  simpa [writeWord] using this

theorem pointer_injective {a b : Reg} (h : a.pointer = b.pointer) : a = b := by
  have := congrArg Reg.ofPointer h
  simpa [ofPointer_pointer] using this

end Sys2Proof.Machine
end

