-- ==== Sys2Proof/Tests/Slice0.lean ====
section
/-! SUPPORT. Tests: the spec's own vectors (95_test_vectors.md, tables A, E, M, S and B), the ill-formed terms, and a witness for the
hypotheses of every statement that has some. -/

namespace Sys2Proof.Tests

open Machine

/-! ### Helper states -/

/-- Initialization with the pins {0,1,0}, `devAddr = 0x1A`. -/
def base : State := State.init fun i => decide (i = 1)

/-- 25.0 °C. -/
def t25 : Binary32 := 0x41C80000

/-- The starting state of table B: `last = 0`, `now = 0`, 25.0 °C, so that a select's sample is skipped. -/
def stateB (sel : Option Reg) (idx : Nat) : State := { base with sel := sel, idx := idx, last := some 0, env := ⟨0, t25⟩ }

/-- A state whose next event is the word `w`. -/
def arriving (s : State) (w : EventWord) : State := { s with inbox := [⟨w, s.env⟩] }

/-- The cursor and the result after a step, the columns of table B. -/
def outcomeB (s : State) (w : EventWord) : Option (Option Reg × Nat × Result) :=
  (nextOf (step (arriving s w))).map fun t => (t.sel, t.idx, t.res)

/-! ### Ill-formed terms -/

theorem test_illformed_0A_0B : (Instr.selInvalid0Ato0B 0x0C).wellFormed = false := by decide
theorem test_illformed_0C_0F : (Instr.selInvalid0Cto0F 0x10).wellFormed = false := by decide
theorem test_illformed_10_1F : (Instr.selInvalid10to1F 0x0F).wellFormed = false := by decide
theorem test_illformed_20_3F : (Instr.selInvalid20to3F 0x40).wellFormed = false := by decide
theorem test_illformed_40_7F : (Instr.selInvalid40to7F 0x80).wellFormed = false := by decide
theorem test_illformed_80_FF : (Instr.selInvalid80toFF 0x7F).wellFormed = false := by decide

/-! ### Decoding: each row's word from its "encoding" column, and table E -/

theorem test_decode_connect : decode .idle 0b0000110100#10 = .connect 0x1A false ∧
    decode .registerSelected 0b0000110101#10 = .connect 0x1A true := by decide
theorem test_decode_selConfig : decode .idle 0b0100000001#10 = .selConfig := by decide
theorem test_decode_selUpperTemp : decode .idle 0b0100000010#10 = .selUpperTemp := by decide
theorem test_decode_selLowerTemp : decode .idle 0b0100000011#10 = .selLowerTemp := by decide
theorem test_decode_selCritTemp : decode .idle 0b0100000100#10 = .selCritTemp := by decide
theorem test_decode_selAmbientTemp : decode .idle 0b0100000101#10 = .selAmbientTemp := by decide
theorem test_decode_selManufId : decode .idle 0b0100000110#10 = .selManufId := by decide
theorem test_decode_selDeviceId : decode .idle 0b0100000111#10 = .selDeviceId := by decide
theorem test_decode_selResolution : decode .idle 0b0100001000#10 = .selResolution := by decide
theorem test_decode_selInvalid00 : decode .idle 0b0100000000#10 = .selInvalid00 := by decide
theorem test_decode_selInvalid09 : decode .idle 0b0100001001#10 = .selInvalid09 := by decide
theorem test_decode_selInvalid0A_0B : decode .idle 0b0100001010#10 = .selInvalid0Ato0B 0x0A ∧
    decode .idle 0b0100001011#10 = .selInvalid0Ato0B 0x0B := by decide
theorem test_decode_selInvalid0C_0F : decode .idle 0b0100001100#10 = .selInvalid0Cto0F 0x0C ∧
    decode .idle 0b0100001111#10 = .selInvalid0Cto0F 0x0F := by decide
theorem test_decode_selInvalid10_1F : decode .idle 0b0100010000#10 = .selInvalid10to1F 0x10 ∧
    decode .idle 0b0100011111#10 = .selInvalid10to1F 0x1F := by decide
theorem test_decode_selInvalid20_3F : decode .idle 0b0100100000#10 = .selInvalid20to3F 0x20 ∧
    decode .idle 0b0100111111#10 = .selInvalid20to3F 0x3F := by decide
theorem test_decode_selInvalid40_7F : decode .idle 0b0101000000#10 = .selInvalid40to7F 0x40 ∧
    decode .idle 0b0101111111#10 = .selInvalid40to7F 0x7F := by decide
theorem test_decode_selInvalid80_FF : decode .idle 0b0110000000#10 = .selInvalid80toFF 0x80 ∧
    decode .idle 0b0111111111#10 = .selInvalid80toFF 0xFF := by decide
theorem test_decode_writeData : decode .registerSelected 0b0100000000#10 = .writeData 0x00 ∧
    decode .registerSelected 0b0111111111#10 = .writeData 0xFF := by decide
theorem test_decode_readData : decode .registerSelected 0b1010100101#10 = .readData := by decide
theorem test_decode_readIdle : decode .idle 0b1000000000#10 = .readIdle := by decide
theorem test_decode_disconnect : decode .idle 0b1100000000#10 = .disconnect ∧
    decode .registerSelected 0b1111111111#10 = .disconnect := by decide
theorem test_number_too_wide_is_rejected : decodeNumber .idle 0x400 = .error .notAnEventWord := by rfl
theorem test_encode_reads_and_disconnects_write_zero : encode .readData = 0x200 ∧ encode .readIdle = 0x200 ∧
    encode .disconnect = 0x300 := by decide

/-- The words of WRITE_DATA and READ_DATA run those rows where a register is selected. -/
theorem test_fetch_word_follows_the_state :
    decodeTableWord 16 0x101 = some .selConfig ∧
    (nextOf (step ((stateB (some .config) 0).withFetchWord 16 0x101))).map (·.regs.config) = some 0x0001 ∧
    (nextOf (step ((stateB (some .manufId) 0).withFetchWord 16 0x200))).map (·.res.rdata) = some (some 0x54) := by decide

/-- The first event after reset, whatever the address lines are: the select of program P1, and an invalid one. -/
theorem test_first_event_after_reset :
    decodeTableWord 16 0x106 = some .selManufId ∧
    (nextOf (step (State.reset.withFetchWord 16 0x106))).map (fun t => (t.sel, t.idx, t.res.err)) = some (some .manufId, 1, 0) ∧
    (nextOf (step (State.reset.withFetchWord 16 0x1FF))).map (fun t => (t.sel, t.res.err)) = some (none, 1) := by decide

/-! ### Table A: the address resolver -/

theorem test_A1_A3_A8 : resolveAddress (fun _ => false) = 0x18 ∧ base.devAddr = 0x1A ∧
    resolveAddress (fun _ => true) = 0x1F := by decide
theorem test_A2_A5 : resolveAddress (fun i => decide (i = 0)) = 0x19 ∧ resolveAddress (fun i => decide (i = 2)) = 0x1C := by decide

/-! ### Table M: byte access -/

theorem test_M1_M2_M3 : base.memRead .manufId 1 = 0x00 ∧ base.memRead .manufId 0 = 0x54 ∧ base.memRead .deviceId 1 = 0x04 := by decide
theorem test_M4_M5_M6 : ((base.memWrite .config 1 0x12).memWrite .config 0 0x34).regs.config = 0x1234 ∧
    (((base.memWrite .config 1 0x12).memWrite .config 0 0x34).memWrite .config 0 0x01).regs.config = 0x1235 := by decide
theorem test_M8_M10 : ((base.memWrite .resolution 0 0x03).memWrite .resolution 0 0x00).regs.resolution = 0x03 ∧
    (base.memWrite .manufId 1 0xFF).regs.manufId = 0xFF54 := by decide

/-! ### Table S: conversion, flags and gate -/

/-- AMBIENT_TEMP after a first sample of `t` against the threshold `thr`. -/
def ambientAfter (t : Binary32) (thr : Half) : Half :=
  ({ base with env := ⟨0, t⟩, regs := { base.regs with critTemp := thr } } : State).sample.regs.ambientTemp

theorem test_S1_S3 : ambientAfter 0x41C80000 0x0000 = 0x8190 ∧ ambientAfter 0x80000000 0x0001 = 0x0000 := by decide
theorem test_S4_S5 : ambientAfter 0x3CF5C28F 0x0640 = 0x0000 ∧ ambientAfter 0xBCF5C28F 0x0640 = 0x0000 := by decide
theorem test_S6_S7 : ambientAfter 0x42DC0000 0x0640 = 0x86E0 ∧ ambientAfter 0x42480000 0x0640 = 0x0320 := by decide
theorem test_S8_S9 : ambientAfter 0x42C80000 0x0640 = 0x8640 ∧ ambientAfter 0x42C7E000 0x0640 = 0x063F := by decide
theorem test_S10_S11 : ambientAfter 0xC1280000 0x0640 = 0x9F58 ∧ ambientAfter 0xBD800000 0x0640 = 0x9FFF := by decide
theorem test_S12_S13 : ambientAfter 0x437FF000 0x1000 = 0x0FFF ∧ ambientAfter 0xC3800000 0x0640 = 0x9000 := by decide
theorem test_S14_S15 : ambientAfter 0x43960000 0x0640 = 0x92C0 ∧ ambientAfter 0x45000000 0x0640 = 0x8000 := by decide
theorem test_S17_S18 : ambientAfter 0xC5000100 0x0640 = 0x9FFF ∧ ambientAfter 0x459C4000 0x0640 = 0x9880 := by decide
theorem test_S19_S19a : ambientAfter 0x45800000 0x0001 = 0x0000 ∧ ambientAfter 0x4CBEBC20 0x0640 = 0x9000 := by decide
theorem test_S19b_is_open : q4 0x7FC00000 = none ∧ q4 0x7F800000 = none ∧ q4 0xFF800000 = none ∧ q4 0x4D0F0D18 = none := by decide
theorem test_S19c_S19d : ambientAfter 0x41C80000 0xFFFF = 0x0190 ∧ ambientAfter 0xBD800000 0xFFFF = 0x9FFF := by decide

/-- Whether the gate skips, with RESOLUTION `res`, the last sample at `last`, at the time `now`. -/
def gateAt (res : Byte) (last now : Nat) : Bool :=
  ({ base with last := some last, env := ⟨now, 0⟩, regs := { base.regs with resolution := res } } : State).gateSkips

theorem test_S21_S22_S23_S24 : gateAt 0 100 129 = true ∧ gateAt 0 100 130 = false ∧ gateAt 1 100 164 = true ∧
    gateAt 1 100 165 = false := by decide
theorem test_S25_S26_S27_S28 : gateAt 2 100 229 = true ∧ gateAt 2 100 230 = false ∧ gateAt 3 0 249 = true ∧
    gateAt 3 0 250 = false := by decide
theorem test_S30_S31 : gateAt 0x07 0 200 = true ∧ gateAt 0 100 90 = true := by decide

/-! ### Table B: bus events -/

theorem test_B1_B3 : outcomeB (stateB none 0) 0x034 = some (none, 0, ⟨some true, none, 0⟩) ∧
    outcomeB (stateB none 0) 0x0AA = some (none, 0, ⟨some true, none, 0⟩) := by decide
theorem test_B2 : outcomeB (stateB (some .manufId) 0) 0x035 = some (some .manufId, 0, ⟨some true, none, 0⟩) := by decide
theorem test_B4 : outcomeB (stateB none 0) 0x101 = some (some .config, 1, ⟨some true, none, 0⟩) := by decide
theorem test_B5 : outcomeB (stateB none 0) 0x102 = some (some .upperTemp, 1, ⟨some true, none, 0⟩) := by decide
theorem test_B6 : outcomeB (stateB none 0) 0x103 = some (some .lowerTemp, 1, ⟨some true, none, 0⟩) := by decide
theorem test_B7 : outcomeB (stateB none 0) 0x104 = some (some .critTemp, 1, ⟨some true, none, 0⟩) := by decide
theorem test_B8 : outcomeB (stateB none 0) 0x105 = some (some .ambientTemp, 1, ⟨some true, none, 0⟩) := by decide
theorem test_B9 : outcomeB (stateB none 0) 0x106 = some (some .manufId, 1, ⟨some true, none, 0⟩) := by decide
theorem test_B10 : outcomeB (stateB none 0) 0x107 = some (some .deviceId, 1, ⟨some true, none, 0⟩) := by decide
theorem test_B11 : outcomeB (stateB none 0) 0x108 = some (some .resolution, 0, ⟨some true, none, 0⟩) := by decide
theorem test_B12_B13_B14 : outcomeB (stateB none 0) 0x100 = some (none, 0, ⟨some true, none, 1⟩) ∧
    outcomeB (stateB none 0) 0x109 = some (none, 0, ⟨some true, none, 1⟩) ∧
    outcomeB (stateB none 0) 0x1FF = some (none, 0, ⟨some true, none, 1⟩) := by decide
theorem test_B15 : (nextOf (step (arriving { base with env := ⟨7, t25⟩ } 0x109))).map
    (fun t => (t.regs.ambientTemp, t.last, t.res.err)) = some (0x8190, some 7, 1) := by decide
theorem test_B16_B17 : (nextOf (step (arriving (stateB (some .config) 1) 0x112))).map
      (fun t => (t.sel, t.idx, t.regs.config)) = some (some .config, 0, 0x1200) ∧
    (nextOf (step (arriving { stateB (some .config) 0 with regs := { base.regs with config := 0x1200 } } 0x134))).map
      (fun t => (t.sel, t.regs.config)) = some (none, 0x1234) := by decide
theorem test_B18_B21 : (nextOf (step (arriving (stateB (some .resolution) 0) 0x103))).map
      (fun t => (t.sel, t.regs.resolution)) = some (none, 0x03) ∧
    (nextOf (step (arriving { stateB (some .ambientTemp) 1 with regs := { base.regs with ambientTemp := 0x8190 } } 0x140))).map
      (fun t => (t.idx, t.regs.ambientTemp, t.res.err)) = some (0, 0xC190, 3) := by decide
theorem test_B19_B20 : (nextOf (step (arriving (stateB (some .manufId) 1) 0x180))).map
      (fun t => (t.idx, t.regs.manufId, t.res.err)) = some (0, 0x8054, 3) ∧
    (nextOf (step (arriving (stateB (some .deviceId) 0) 0x101))).map
      (fun t => (t.sel, t.regs.deviceId, t.res.err)) = some (none, 0x0401, 3) := by decide
theorem test_B22_B23 : outcomeB (stateB (some .manufId) 1) 0x200 = some (some .manufId, 0, ⟨none, some 0x00, 0⟩) ∧
    outcomeB (stateB (some .manufId) 0) 0x200 = some (none, 0, ⟨none, some 0x54, 0⟩) := by decide
theorem test_B25 : outcomeB (stateB none 0) 0x200 = some (none, 0, ⟨none, some 0xFF, 2⟩) := by decide
theorem test_B26_B27 : outcomeB (stateB (some .config) 1) 0x300 = some (some .config, 1, ⟨none, none, 0⟩) ∧
    outcomeB (stateB none 0) 0x300 = some (none, 0, ⟨none, none, 0⟩) := by decide

/-! ### Witnesses: a state and operands that meet the hypotheses of each statement -/

/-- EveryEventWordDecodesByKind, each clause at the first and last word of its kind. -/
theorem witness_event_word_kinds :
    ((0x000 : EventWord).toNat / 256 = 0 ∧ (0x0FF : EventWord).toNat / 256 = 0) ∧
    ((0x100 : EventWord).toNat / 256 = 1 ∧ (0x1FF : EventWord).toNat / 256 = 1) ∧
    ((0x200 : EventWord).toNat / 256 = 2 ∧ (0x2FF : EventWord).toNat / 256 = 2) ∧
    ((0x300 : EventWord).toNat / 256 = 3 ∧ (0x3FF : EventWord).toNat / 256 = 3) := by decide

/-- TransactionStateSelectsTheRow, both clauses at the ends of the pointer range. -/
theorem witness_pointer_range : (1 ≤ (0x01 : Byte).toNat ∧ (0x08 : Byte).toNat ≤ 8) ∧
    ¬(1 ≤ (0x00 : Byte).toNat ∧ (0x00 : Byte).toNat ≤ 8) ∧ ¬(1 ≤ (0x09 : Byte).toNat ∧ (0x09 : Byte).toNat ≤ 8) := by decide

/-- DecodeOfEncodeIsTheInstruction. -/
theorem witness_wellformed_and_valid : (Instr.selInvalid10to1F 0x1F).wellFormed = true ∧
    (Instr.selInvalid10to1F 0x1F).validIn .idle = true ∧ Instr.readData.validIn .registerSelected = true := by decide

/-- StepRunsTheDecodedEvent: an event to deliver, and none. -/
theorem witness_inbox : (arriving base 0x106).inbox = [⟨0x106, base.env⟩] ∧ base.inbox = [] := by decide

/-- InstructionCompletesExactlyWhereValid, both clauses. -/
theorem witness_valid_and_invalid : Instr.selConfig.validIn base.busState = true ∧
    Instr.selConfig.validIn (stateB (some .config) 1).busState = false ∧ Instr.readData.validIn base.busState = false := by decide

/-- IdleReadReturnsSentinelAndError, ValidSelectSamplesThenPointsAtTopByte, InvalidSelectSamplesAndStaysIdle. -/
theorem witness_idle : base.sel = none := by decide

/-- SelectedReadReturnsCursorByteAndAdvances and DataWriteAccumulatesIntoCursorByte: a selected register at either end of its index
range; another register, and another byte of the same one. -/
theorem witness_selected : (stateB (some .manufId) 1).sel = some .manufId ∧ (stateB (some .manufId) 1).idx < Reg.manufId.width ∧
    (stateB (some .resolution) 0).sel = some .resolution ∧ (stateB (some .resolution) 0).idx < Reg.resolution.width ∧
    Reg.config ≠ .manufId ∧ (Reg.manufId, 0) ≠ (Reg.manufId, (stateB (some .manufId) 1).idx) := by decide

/-- SamplerGatesConvertsAndComposes: the last skipped time and the first taken one, floor 30. -/
theorem witness_gate : (∃ l, ({ base with last := some 100, env := ⟨129, t25⟩ } : State).last = some l ∧ (129 : ℤ) - l < 30) ∧
    (∀ l, ({ base with last := some 100, env := ⟨130, t25⟩ } : State).last = some l → (30 : ℤ) ≤ (130 : ℤ) - l) :=
  ⟨⟨100, rfl, by decide⟩, fun l h => by cases h; decide⟩

/-- The value of a pattern is the one the spec's tables name: 25.0, the ends of int32 after scaling, and none for infinity. -/
theorem witness_binary32_values : binary32Value 0x41C80000 = some 25 ∧ binary32Value 0xCD000000 = some (-134217728) ∧
    binary32Value 0x4D000000 = some 134217728 ∧ binary32Value 0x7F800000 = none := by
  have h₁ : (0x41C80000 : Binary32).toNat = 0x41C80000 := rfl
  have h₂ : (0xCD000000 : Binary32).toNat = 0xCD000000 := rfl
  have h₃ : (0x4D000000 : Binary32).toNat = 0x4D000000 := rfl
  have h₄ : (0x7F800000 : Binary32).toNat = 0x7F800000 := rfl
  refine ⟨?_, ?_, ?_, ?_⟩ <;> simp only [binary32Value, h₁, h₂, h₃, h₄] <;> norm_num

/-- ConversionTruncatesTowardZeroAndWraps: in range up to the lower end, out of range from the upper end. -/
theorem witness_conversion_range :
    (-2 ^ 31 ≤ truncTowardZero ((-134217728 : ℚ) * 16) ∧ truncTowardZero ((-134217728 : ℚ) * 16) ≤ 2 ^ 31 - 1) ∧
    2 ^ 31 - 1 < truncTowardZero ((134217728 : ℚ) * 16) := by
  refine ⟨⟨?_, ?_⟩, ?_⟩ <;> norm_num [truncTowardZero]

/-- AmbientFieldReadsBackTheTemperature and NegativeReadingSetsTheCriticalFlag: an open gate and a reading at an end of both ranges,
-256.0 °C. -/
theorem witness_negative_reading : ({ base with env := ⟨0, 0xC3800000⟩ } : State).gateSkips = false ∧
    binary32Value 0xC3800000 = some (-256) ∧ -4096 ≤ truncTowardZero ((-256 : ℚ) * 16) ∧
    truncTowardZero ((-256 : ℚ) * 16) ≤ -1 ∧ base.regs.critTemp.toNat < 0x8000 := by
  refine ⟨by decide, ?_, ?_, ?_, by decide⟩
  · have h : (0xC3800000 : Binary32).toNat = 0xC3800000 := rfl
    simp only [binary32Value, h]
    norm_num
  · norm_num [truncTowardZero]
  · norm_num [truncTowardZero]

/-- AmbientFieldReadsBackTheTemperature at the upper end of its range, 255.9375 °C; NegativeReadingSetsTheCriticalFlag at its ends,
-2048.0 °C and -0.0625 °C. -/
theorem witness_reading_ends :
    (binary32Value 0x437FF000 = some (4095 / 16) ∧ truncTowardZero ((4095 / 16 : ℚ) * 16) ≤ 4095) ∧
    (binary32Value 0xC5000000 = some (-2048) ∧ -32768 ≤ truncTowardZero ((-2048 : ℚ) * 16)) ∧
    (binary32Value 0xBD800000 = some (-1 / 16) ∧ truncTowardZero ((-1 / 16 : ℚ) * 16) ≤ -1) := by
  have h₁ : (0x437FF000 : Binary32).toNat = 0x437FF000 := rfl
  have h₂ : (0xC5000000 : Binary32).toNat = 0xC5000000 := rfl
  have h₃ : (0xBD800000 : Binary32).toNat = 0xBD800000 := rfl
  refine ⟨⟨?_, ?_⟩, ⟨?_, ?_⟩, ⟨?_, ?_⟩⟩
  · simp only [binary32Value, h₁]
    norm_num
  · norm_num [truncTowardZero]
  · simp only [binary32Value, h₂]
    norm_num
  · norm_num [truncTowardZero]
  · simp only [binary32Value, h₃]
    norm_num [zpow_neg]
  · norm_num [truncTowardZero]

/-- ZeroThresholdSetsTheCriticalFlag. -/
theorem witness_zero_threshold : base.gateSkips = false ∧ base.regs.critTemp = 0 := by decide

/-- FirstSelectAlwaysSamples. -/
theorem witness_first_select : (arriving base (writeWord 0x05)).inbox = [⟨writeWord 0x05, base.env⟩] ∧
    (arriving base (writeWord 0x05)).sel = none ∧ (arriving base (writeWord 0x05)).last = none := by decide

/-- OnlyIdleWritesRunTheSampler: a data write is no Idle Write, and the step answers. -/
theorem witness_data_write_step : (arriving (stateB (some .ambientTemp) 1) 0x140).sel ≠ none ∧
    (nextOf (step (arriving (stateB (some .ambientTemp) 1) 0x140))).isSome = true ∧
    ((nextOf (step (arriving (stateB (some .ambientTemp) 1) 0x140))).map (·.regs.ambientTemp) = some 0x4000) := by decide

/-- EveryStepKeepsTheInvariant: initialization meets the invariant, and a step on from it answers. -/
theorem witness_invariant : (arriving base 0x106).Inv ∧ (nextOf (step (arriving base 0x106))).isSome = true := by
  refine ⟨⟨fun r h => ?_, by decide, by decide, by decide, fun _ => by decide⟩, by decide⟩
  cases h

/-- EveryStepKeepsTimeOrdered: two events in order after a sample. -/
theorem witness_time_ordered :
    ({ base with last := some 0, inbox := [⟨0x034, ⟨5, 0⟩⟩, ⟨0x106, ⟨5, 0⟩⟩] } : State).TimeOrdered ∧
    (nextOf (step { base with last := some 0, inbox := [⟨0x034, ⟨5, 0⟩⟩, ⟨0x106, ⟨5, 0⟩⟩] })).isSome = true := by
  refine ⟨⟨by decide, by decide, fun t h => ?_⟩, by decide⟩
  cases h
  decide

/-- StepsNeverClearRegisterBits: a set bit, and a step of a state with a register selected. -/
theorem witness_set_bit : (base.regs.get .manufId).getLsbD 2 = true ∧ Reg.manufId ≠ .ambientTemp ∧
    (nextOf (step (arriving (stateB (some .ambientTemp) 1) 0x140))).isSome = true := by decide

/-- DeviceAddressIsImmutable, TraceGrowsAndInfluencesNothing: a run of one step answers a next state. -/
theorem witness_run : ∃ t, Host.Core.run Sys2Proof.core 1 (arriving base 0x106) = .next t ∧ step (arriving base 0x106) = .next t :=
  ⟨_, rfl, rfl⟩

/-- TransitionsAreSelectAndLastTransfer and ResultOfEveryEvent, each clause: an Idle event, a transfer at index 0 and one above it. -/
theorem witness_transitions : (nextOf (step (arriving base (writeWord Reg.manufId.pointer)))).map (·.sel) = some (some .manufId) ∧
    (nextOf (step (arriving (stateB (some .manufId) 0) 0x200))).map (·.sel) = some none ∧
    (nextOf (step (arriving (stateB (some .manufId) 1) 0x200))).map (·.sel) = some (some .manufId) := by decide

/-- An event word arriving at time 0 and pattern 0. -/
def at0 (w : EventWord) : Arrival := ⟨w, ⟨0, 0⟩⟩

/-- AccessTakesExactlyWidthTransfers, both clauses: after the select of a 2-byte register, a Connect and one Read, and then a second
Read; and after the select of RESOLUTION one Write. -/
theorem witness_transfer_counts :
    ({ base with inbox := at0 (writeWord Reg.manufId.pointer) :: ([at0 0x035, at0 0x200] ++ [at0 0x200]) } : State).sel = none ∧
    transfers [at0 0x035, at0 0x200] < Reg.manufId.width ∧
    transfers [at0 0x035, at0 0x200, at0 0x200] = Reg.manufId.width ∧
    transfers [at0 0x103] = Reg.resolution.width := by decide

/-- TwoByteRegisterReadsHighByteFirst. -/
theorem witness_two_reads :
    ({ base with inbox := [at0 0x106, at0 0x200, at0 0x2A5] } : State).inbox =
      ⟨writeWord Reg.manufId.pointer, ⟨0, 0⟩⟩ :: ⟨0x200, ⟨0, 0⟩⟩ :: ⟨0x2A5, ⟨0, 0⟩⟩ :: [] ∧
    ({ base with inbox := [at0 0x106, at0 0x200, at0 0x2A5] } : State).sel = none ∧ Reg.manufId ≠ .resolution ∧
    kindOf 0x200 = 0b10#2 ∧ kindOf 0x2A5 = 0b10#2 := by decide

/-- WrittenBytesReadBackInOrder for AMBIENT_TEMP, both selects at the last skipped time; and for RESOLUTION. -/
theorem witness_written_bytes :
    (stateB none 0).sel = none ∧ (stateB none 0).last = some 0 ∧ (29 : ℤ) - ((0 : Nat) : ℤ) < floorOf (stateB none 0).regs.res ∧
    ({ stateB none 0 with inbox := [⟨0x105, ⟨29, 0⟩⟩, at0 0x140, at0 0x100, ⟨0x105, ⟨29, 0⟩⟩, at0 0x200, at0 0x200] } : State).inbox =
      [⟨writeWord Reg.ambientTemp.pointer, ⟨29, 0⟩⟩, ⟨writeWord 0x40, ⟨0, 0⟩⟩, ⟨writeWord 0x00, ⟨0, 0⟩⟩,
        ⟨writeWord Reg.ambientTemp.pointer, ⟨29, 0⟩⟩, ⟨readWord, ⟨0, 0⟩⟩, ⟨readWord, ⟨0, 0⟩⟩] ∧
    ({ base with inbox := [at0 0x108, at0 0x103, at0 0x108, at0 0x200] } : State).inbox =
      [⟨writeWord Reg.resolution.pointer, ⟨0, 0⟩⟩, ⟨writeWord 0x03, ⟨0, 0⟩⟩, ⟨writeWord Reg.resolution.pointer, ⟨0, 0⟩⟩,
        ⟨readWord, ⟨0, 0⟩⟩] := by decide

/-- AmbientBytesReadBackAfterItsSample: the first select at the first taken time, the second at the last skipped one. -/
theorem witness_sampled_then_skipped :
    (stateB none 0).sel = none ∧ (∀ l, (stateB none 0).last = some l → (floorOf (stateB none 0).regs.res : ℤ) ≤ (30 : ℤ) - l) ∧
    (59 : ℤ) - 30 < floorOf (stateB none 0).regs.res ∧
    ({ stateB none 0 with inbox := [⟨0x105, ⟨30, 0⟩⟩, at0 0x140, at0 0x100, ⟨0x105, ⟨59, 0⟩⟩, at0 0x200, at0 0x200] } : State).inbox =
      [⟨writeWord Reg.ambientTemp.pointer, ⟨30, 0⟩⟩, ⟨writeWord 0x40, ⟨0, 0⟩⟩, ⟨writeWord 0x00, ⟨0, 0⟩⟩,
        ⟨writeWord Reg.ambientTemp.pointer, ⟨59, 0⟩⟩, ⟨readWord, ⟨0, 0⟩⟩, ⟨readWord, ⟨0, 0⟩⟩] := by
  refine ⟨by decide, fun l h => ?_, by decide, by decide⟩
  cases h
  decide

/-- StorageOnlyRegistersInfluenceNothing: RESOLUTION changed above its low two bits. -/
theorem witness_storage_only : (0xFC : Byte).toNat % 4 = (arriving base 0x106).regs.resolution.toNat % 4 ∧
    (nextOf (step (arriving base 0x106))).isSome = true ∧ (arriving base 0x106).sel ≠ some .config := by decide

end Sys2Proof.Tests
end

namespace Sys2Proof.Machine

/-- Delivering an event does not move the transaction machine. -/
@[simp] theorem accept_busState (s : State) (a : Arrival) (l : List Arrival) : (s.accept a l).busState = s.busState := rfl

/-- An event decoded in the state it meets completes: a Write or a Read becomes the row valid in that state (R65, R66), and a
Connect or a Disconnect is valid in both. -/
theorem exec_decodeIn_busState (s : State) (e : Event) : ∃ t, exec (decodeIn s.busState e) s = .next t := by
  cases e with
  | connect address isRead => exact ⟨s.beginEvent.acknowledge, rfl⟩
  | write b =>
    cases hs : s.sel with
    | none =>
      rw [busState_of_none s hs, decodeIn]
      exact ⟨_, exec_decodeSelect s b hs⟩
    | some r => exact ⟨s.transferIn r b, by simp [hs, decodeIn, exec, execWriteData, whileSelected]⟩
  | read =>
    cases hs : s.sel with
    | none => exact ⟨s.readNothing, by simp [hs, decodeIn, exec, execReadIdle, whileIdle]⟩
    | some r => exact ⟨s.transferOut r, by simp [hs, decodeIn, exec, execReadData, whileSelected]⟩
  | disconnect => exact ⟨s.beginEvent, rfl⟩

/-- Settles O7: with an empty inbox the step stays where it is, and an event delivered is decoded in the state it meets. -/
theorem noStepStops : Obligations.NoStepStops := by
  intro s
  rcases inbox_cases s with hi | ⟨a, rest, hi⟩
  · exact ⟨s, step_nil s hi⟩
  · rw [step_cons s a rest hi, decode, ← accept_busState s a rest]
    exact exec_decodeIn_busState (s.accept a rest) (decodeEvent a.word)

end Sys2Proof.Machine

namespace Sys2Proof.Machine

/-! ### What every step keeps (`10_state.md` R22 to R24) -/

/-- A byte write clears no bit of any register (`20_memory.md` R42; `70_reset_and_hazards.md` R176). -/
theorem memWrite_keeps_bit (s : State) (r r' : Reg) (i k : Nat) (b : Byte) (hk : (s.regs.get r').getLsbD k = true) :
    ((s.memWrite r i b).regs.get r').getLsbD k = true := by
  by_cases hr : r' = r
  · subst hr
    rw [memWrite_getLsbD_same, hk, Bool.true_or]
  · rw [memWrite_get_other s r r' i b hr, hk]

/-- Every select samples, and so sets the sampling clock (`41_temperature_sampler.md` R94). -/
theorem sample_last_ne_none (s : State) : s.sample.last ≠ none := by
  rcases sample_last_cases s with ⟨hl, hn⟩ | hl
  · rwa [hl]
  · simp [hl]

/-- What a step does to the registers, the cursor and the sampling clock. It leaves them alone; or it is an Idle Write, which samples
and then stays Idle or points at the top byte of a register; or it moves a byte of the selected register, into it or out of it. -/
theorem step_block_cases {s t : State} (h : step s = .next t) :
    (t.regs = s.regs ∧ t.sel = s.sel ∧ t.idx = s.idx ∧ t.last = s.last) ∨
    (s.sel = none ∧ (∀ r, r ≠ .ambientTemp → t.regs.get r = s.regs.get r) ∧ t.last ≠ none ∧
      (t.sel = none ∨ ∃ r, t.sel = some r ∧ t.idx = r.width - 1)) ∨
    (∃ r, s.sel = some r ∧ (t.regs = s.regs ∨ ∃ b, t.regs = (s.memWrite r s.idx b).regs) ∧
      t.sel = (if s.idx = 0 then none else some r) ∧ t.idx = s.idx - 1 ∧ t.last = s.last) := by
  rcases step_cases h with ⟨_, rfl⟩ | ⟨a, rest, u, _, rfl, ht⟩
  · exact .inl ⟨rfl, rfl, rfl, rfl⟩
  · have sampled (r : Reg) (hr : r ≠ .ambientTemp) : (s.accept a rest).sample.regs.get r = s.regs.get r :=
      sample_get_other _ r hr
    rcases ht with ⟨_, rfl⟩ | ⟨r, _, _, hs, rfl⟩ | ⟨b, _, _, hs, _, rfl⟩ | ⟨r, b, _, _, hs, rfl⟩ | ⟨r, _, hs, rfl⟩ | ⟨_, _, rfl⟩ |
      ⟨_, rfl⟩
    · exact .inl ⟨rfl, rfl, rfl, rfl⟩
    · exact .inr (.inl ⟨hs, by simpa using sampled, by simpa using sample_last_ne_none _, .inr ⟨r, by simp, by simp⟩⟩)
    · exact .inr (.inl ⟨hs, by simpa using sampled, by simpa using sample_last_ne_none _, .inl (by simpa using hs)⟩)
    · exact .inr (.inr ⟨r, hs, .inr ⟨b, by simp⟩, by simp [hs], by simp, by simp⟩)
    · exact .inr (.inr ⟨r, hs, .inl (by simp), by simp [hs], by simp, by simp⟩)
    · exact .inl ⟨rfl, rfl, rfl, rfl⟩
    · exact .inl ⟨rfl, rfl, rfl, rfl⟩

/-- No step moves the device address latch (`10_state.md` R24). -/
theorem step_devAddr {s t : State} (h : step s = .next t) : t.devAddr = s.devAddr := by
  rcases step_cases h with ⟨_, rfl⟩ | ⟨a, rest, u, _, rfl, ht⟩
  · rfl
  · rcases ht with ⟨_, rfl⟩ | ⟨r, _, _, _, rfl⟩ | ⟨b, _, _, _, _, rfl⟩ | ⟨r, b, _, _, _, rfl⟩ | ⟨r, _, _, rfl⟩ | ⟨_, _, rfl⟩ |
      ⟨_, rfl⟩ <;> simp

/-- No step clears a bit of a register that no sample rewrites: one other than AMBIENT_TEMP, or any register while one is selected
(`70_reset_and_hazards.md` R176). -/
theorem step_keeps_bit {s t : State} (h : step s = .next t) {r : Reg} (hr : r ≠ .ambientTemp ∨ s.sel ≠ none) {k : Nat}
    (hk : (s.regs.get r).getLsbD k = true) : (t.regs.get r).getLsbD k = true := by
  rcases step_block_cases h with ⟨hregs, _⟩ | ⟨hs, hregs, _⟩ | ⟨r', _, hregs | ⟨b, hregs⟩, _⟩
  · rwa [hregs]
  · rwa [hregs r (hr.resolve_right fun hn => hn hs)]
  · rwa [hregs]
  · rw [hregs]
    exact memWrite_keeps_bit s r' r s.idx k b hk

/-- A select puts the cursor on the top byte of its register, and a transfer moves it down or leaves the register
(`10_state.md` R22). -/
theorem step_cursorInRange {s t : State} (h : step s = .next t) (hc : s.CursorInRange) : t.CursorInRange := by
  intro r ht
  rcases step_block_cases h with ⟨_, hsel, hidx, _⟩ | ⟨_, _, _, hn | ⟨r', hsel, hidx⟩⟩ | ⟨r', hs, _, hsel, hidx, _⟩
  · rw [hidx]
    exact hc r (hsel ▸ ht)
  · rw [hn] at ht
    cases ht
  · rw [hsel] at ht
    cases ht
    rw [hidx]
    exact Nat.sub_lt (width_pos r) Nat.one_pos
  · rw [hsel] at ht
    split at ht
    · cases ht
    · cases ht
      rw [hidx]
      exact (Nat.sub_le _ 1).trans_lt (hc r hs)

/-- Before the first sample a step leaves the block Idle and its registers alone: a select takes the first sample, and a transfer
comes only after a select (`70_reset_and_hazards.md` R172). -/
theorem step_unsampled {s t : State} (h : step s = .next t) (hu : s.last = none → s.sel = none ∧ s.regs = Regs.reset)
    (ht : t.last = none) : t.sel = none ∧ t.regs = Regs.reset := by
  rcases step_block_cases h with ⟨hregs, hsel, _, hlast⟩ | ⟨_, _, hlast, _⟩ | ⟨r, hs, _, _, _, hlast⟩
  · rw [hregs, hsel]
    exact hu (hlast ▸ ht)
  · exact absurd ht hlast
  · have := (hu (hlast ▸ ht)).1
    rw [hs] at this
    cases this

/-- Bits set in `x` stay set in a `y` that keeps the bits of `x`. -/
theorem and_eq_of_keeps_bits {x y m : Half} (hxy : ∀ k, x.getLsbD k = true → y.getLsbD k = true) (hx : x &&& m = m) :
    y &&& m = m := by
  apply BitVec.eq_of_getLsbD_eq
  intro k _
  have hk : (x.getLsbD k && m.getLsbD k) = m.getLsbD k := by rw [← BitVec.getLsbD_and, hx]
  cases hm : m.getLsbD k with
  | false => simp [hm]
  | true =>
    rw [hm, Bool.and_true] at hk
    simp [hm, hxy k hk]

/-- Settles O26, field by field of the invariant. -/
theorem everyStepKeepsTheInvariant : Obligations.EveryStepKeepsTheInvariant := by
  intro s t ⟨hcursor, haddress, hmanufId, hdeviceId, hunsampled⟩ h
  exact
    { cursor := step_cursorInRange h hcursor
      address := by rwa [step_devAddr h]
      manufId := and_eq_of_keeps_bits (fun k => step_keeps_bit h (r := .manufId) (.inl (by decide))) hmanufId
      deviceId := and_eq_of_keeps_bits (fun k => step_keeps_bit h (r := .deviceId) (.inl (by decide))) hdeviceId
      unsampled := step_unsampled h hunsampled }

/-- Settles O30, by induction on the length of the run: no step stops, and none moves the latch. -/
theorem deviceAddressIsImmutable : Obligations.DeviceAddressIsImmutable := by
  intro n
  induction n with
  | zero => intro s t h; cases h; rfl
  | succ n ih =>
    intro s t h
    obtain ⟨u, hu⟩ := noStepStops s
    rw [run_succ_of_step n hu] at h
    exact (ih u t h).trans (step_devAddr hu)

end Sys2Proof.Machine

namespace Sys2Proof

/-- The registers that are storage only: no rule reads CONFIG, UPPER_TEMP or LOWER_TEMP, and RESOLUTION only in its low two bits
(`10_state.md` R14, R15, R16, R21). -/
def Reg.storageOnly : Reg → Bool
  | .config => true
  | .upperTemp => true
  | .lowerTemp => true
  | .critTemp => false
  | .ambientTemp => false
  | .manufId => false
  | .deviceId => false
  | .resolution => true

end Sys2Proof

namespace Sys2Proof.Machine

/-! ### The answer to an event as one function -/

/-- The state an event leaves, by the selected register (`42_bus_transactions.md` R123 to R129). -/
def State.respond (s : State) : Event → State
  | .connect _ _ => s.beginEvent.acknowledge
  | .write b =>
    match s.sel with
    | none =>
      match Reg.ofPointer b with
      | some r => s.selectRegister r
      | none => s.selectNothing b
    | some r => s.transferIn r b
  | .read =>
    match s.sel with
    | none => s.readNothing
    | some r => s.transferOut r
  | .disconnect => s.beginEvent

/-- An event decoded and run in the state it meets leaves `respond`. -/
theorem exec_decodeIn_eq_respond (s : State) (e : Event) : exec (decodeIn s.busState e) s = .next (s.respond e) := by
  cases e with
  | connect address isRead => rfl
  | write b =>
    cases hs : s.sel with
    | none =>
      rw [busState_of_none s hs, decodeIn, exec_decodeSelect s b hs]
      cases hp : Reg.ofPointer b <;> simp [State.respond, hs, hp]
    | some r => simp [decodeIn, exec, execWriteData, whileSelected, State.respond, hs]
  | read =>
    cases hs : s.sel with
    | none => simp [decodeIn, exec, execReadIdle, whileIdle, State.respond, hs]
    | some r => simp [decodeIn, exec, execReadData, whileSelected, State.respond, hs]
  | disconnect => rfl

theorem step_eq_respond (s : State) (a : Arrival) (rest : List Arrival) (h : s.inbox = a :: rest) :
    step s = .next ((s.accept a rest).respond (decodeEvent a.word)) := by
  rw [step_cons s a rest h, decode, ← accept_busState s a rest, exec_decodeIn_eq_respond]

/-! ### The storage-only registers (`10_state.md` R14, R15, R16, R21) -/

/-- The state with other contents in the storage-only registers. -/
def State.withStorage (s : State) (config upperTemp lowerTemp : Half) (resolution : Byte) : State :=
  { s with regs := { s.regs with
      config := config, upperTemp := upperTemp, lowerTemp := lowerTemp, resolution := resolution } }

/-- Agreement on everything a storage-only register must not influence: all but the four registers themselves (and RESOLUTION[1:0]
is no storage), the read data and the trace. -/
structure State.AgreesBeyondStorage (s' s : State) : Prop where
  regs    : ∀ r, r.storageOnly = false → s'.regs.get r = s.regs.get r
  setting : s'.regs.resolution.toNat % 4 = s.regs.resolution.toNat % 4
  sel     : s'.sel = s.sel
  idx     : s'.idx = s.idx
  last    : s'.last = s.last
  devAddr : s'.devAddr = s.devAddr
  env     : s'.env = s.env
  inbox   : s'.inbox = s.inbox
  draws   : s'.draws = s.draws
  ack     : s'.res.ack = s.res.ack
  err     : s'.res.err = s.res.err

section
variable (s : State) {config upperTemp lowerTemp : Half} {resolution : Byte}

theorem withStorage_get (r : Reg) (hr : r.storageOnly = false) :
    (s.withStorage config upperTemp lowerTemp resolution).regs.get r = s.regs.get r := by
  cases r
  case config | upperTemp | lowerTemp | resolution => cases hr
  all_goals rfl

theorem withStorage_agrees (h : resolution.toNat % 4 = s.regs.resolution.toNat % 4) :
    (s.withStorage config upperTemp lowerTemp resolution).AgreesBeyondStorage s where
  regs := withStorage_get s
  setting := h
  sel := rfl
  idx := rfl
  last := rfl
  devAddr := rfl
  env := rfl
  inbox := rfl
  draws := rfl
  ack := rfl
  err := rfl

/-- The sampler reads of the storage-only registers no more than RESOLUTION[1:0], and writes none of them
(`41_temperature_sampler.md` R93, R98). -/
theorem sample_withStorage (h : resolution.toNat % 4 = s.regs.resolution.toNat % 4) :
    (s.withStorage config upperTemp lowerTemp resolution).sample =
      s.sample.withStorage config upperTemp lowerTemp resolution := by
  have hg : (s.withStorage config upperTemp lowerTemp resolution).gateSkips = s.gateSkips := gateSkips_congr s rfl rfl h
  cases hs : s.gateSkips with
  | true => rw [sample_of_skips _ (hg.trans hs), sample_of_skips s hs]
  | false =>
    rw [sample_of_taken _ (hg.trans hs), sample_of_taken s hs]
    rfl

theorem sample_resolution : s.sample.regs.resolution = s.regs.resolution := by
  unfold State.sample
  split <;> rfl

theorem selectRegister_withStorage (r : Reg) (h : resolution.toNat % 4 = s.regs.resolution.toNat % 4) :
    (s.withStorage config upperTemp lowerTemp resolution).selectRegister r =
      (s.selectRegister r).withStorage config upperTemp lowerTemp resolution := by
  simp only [State.selectRegister, beginEvent_sample, sample_withStorage s h]
  rfl

theorem selectNothing_withStorage (b : Byte) (h : resolution.toNat % 4 = s.regs.resolution.toNat % 4) :
    (s.withStorage config upperTemp lowerTemp resolution).selectNothing b =
      (s.selectNothing b).withStorage config upperTemp lowerTemp resolution := by
  simp only [State.selectNothing, beginEvent_sample, sample_withStorage s h]
  rfl

theorem res_getLsbD (x : Regs) (k : Nat) : x.res.getLsbD k = (decide (k < 2) && (x.get .resolution).getLsbD k) := by
  by_cases hk : k < 2
  · simp [Regs.res, Regs.get, hk, show k < 16 by omega]
  · simp [Regs.res, hk]

/-- RESOLUTION[1:0] as a number is its two bits. -/
theorem setting_eq_iff (x y : Regs) : x.resolution.toNat % 4 = y.resolution.toNat % 4 ↔
    ∀ k, k < 2 → (x.get .resolution).getLsbD k = (y.get .resolution).getLsbD k := by
  rw [← res_toNat, ← res_toNat, ← BitVec.toNat_eq]
  constructor
  · intro h k hk
    have hbit : x.res.getLsbD k = y.res.getLsbD k := by rw [h]
    rwa [res_getLsbD, res_getLsbD, decide_eq_true hk, Bool.true_and, Bool.true_and] at hbit
  · intro h
    apply BitVec.eq_of_getLsbD_eq
    intro k hk
    rw [res_getLsbD, res_getLsbD, h k hk]

variable {s} {s' : State}

/-- Of RESOLUTION, bits 1:0 after a byte write depend on nothing but bits 1:0 before it. -/
theorem memWrite_setting (h : s'.regs.resolution.toNat % 4 = s.regs.resolution.toNat % 4) (r : Reg) (i : Nat) (b : Byte) :
    (s'.memWrite r i b).regs.resolution.toNat % 4 = (s.memWrite r i b).regs.resolution.toNat % 4 := by
  rw [setting_eq_iff] at h ⊢
  intro k hk
  by_cases hr : Reg.resolution = r
  · subst hr
    rw [memWrite_getLsbD_same, memWrite_getLsbD_same, h k hk]
  · rw [memWrite_get_other s' r _ i b hr, memWrite_get_other s r _ i b hr, h k hk]

/-- A register after a byte write depends on no other register. -/
theorem memWrite_get_congr {q : Reg} (h : s'.regs.get q = s.regs.get q) (r : Reg) (i : Nat) (b : Byte) :
    (s'.memWrite r i b).regs.get q = (s.memWrite r i b).regs.get q := by
  by_cases hq : q = r
  · subst hq
    rw [memWrite_regs, memWrite_regs, get_set_same, get_set_same, h]
  · rw [memWrite_get_other s' r q i b hq, memWrite_get_other s r q i b hq, h]

namespace State.AgreesBeyondStorage

theorem transferIn (h : s'.AgreesBeyondStorage s) (r : Reg) (b : Byte) :
    (s'.transferIn r b).AgreesBeyondStorage (s.transferIn r b) where
  regs q hq := by
    rw [transferIn_regs, transferIn_regs, h.idx]
    exact memWrite_get_congr (h.regs q hq) r s.idx b
  setting := by
    rw [transferIn_regs, transferIn_regs, h.idx]
    exact memWrite_setting h.setting r s.idx b
  sel := by simp [h.sel, h.idx]
  idx := by simp [h.idx]
  last := by simp [h.last]
  devAddr := by simp [h.devAddr]
  env := by simp [h.env]
  inbox := by simp [h.inbox]
  draws := by simp [h.draws]
  ack := by simp
  err := by simp

theorem transferOut (h : s'.AgreesBeyondStorage s) (r : Reg) :
    (s'.transferOut r).AgreesBeyondStorage (s.transferOut r) where
  regs q hq := by simpa using h.regs q hq
  setting := by simpa using h.setting
  sel := by simp [h.sel, h.idx]
  idx := by simp [h.idx]
  last := by simp [h.last]
  devAddr := by simp [h.devAddr]
  env := by simp [h.env]
  inbox := by simp [h.inbox]
  draws := by simp [h.draws]
  ack := by simp
  err := by simp

end State.AgreesBeyondStorage

/-- The storage-only registers do not influence the answer to an event: a select, or an event that moves no byte, gives the answer of
the other state with the same storage in it; a transfer touches one register, and only a Read shows what that register holds. -/
theorem respond_withStorage (s : State) (h : resolution.toNat % 4 = s.regs.resolution.toNat % 4) (e : Event) :
    ((s.withStorage config upperTemp lowerTemp resolution).respond e).AgreesBeyondStorage (s.respond e) ∧
    ((∀ r, s.sel = some r → r.storageOnly = false) →
      ((s.withStorage config upperTemp lowerTemp resolution).respond e).res = (s.respond e).res ∧
      ((s.withStorage config upperTemp lowerTemp resolution).respond e).trace = (s.respond e).trace) := by
  have hsel : (s.withStorage config upperTemp lowerTemp resolution).sel = s.sel := rfl
  have unread (t : State) (ht : t.regs.resolution = s.regs.resolution) :
      (t.withStorage config upperTemp lowerTemp resolution).AgreesBeyondStorage t := withStorage_agrees t (by rw [ht, h])
  cases e with
  | connect address isRead => exact ⟨unread s.beginEvent.acknowledge rfl, fun _ => ⟨rfl, rfl⟩⟩
  | disconnect => exact ⟨unread s.beginEvent rfl, fun _ => ⟨rfl, rfl⟩⟩
  | write b =>
    cases hs : s.sel with
    | none =>
      cases hp : Reg.ofPointer b with
      | none =>
        simp only [State.respond, hsel, hs, hp, selectNothing_withStorage s b h]
        exact ⟨unread _ (by rw [selectNothing_regs, sample_resolution]), fun _ => ⟨rfl, rfl⟩⟩
      | some r =>
        simp only [State.respond, hsel, hs, hp, selectRegister_withStorage s r h]
        exact ⟨unread _ (by rw [selectRegister_regs, sample_resolution]), fun _ => ⟨rfl, rfl⟩⟩
    | some r =>
      simp only [State.respond, hsel, hs]
      refine ⟨(unread s rfl).transferIn r b, fun _ => ?_⟩
      rw [transferIn_res, transferIn_res, transferIn_trace, transferIn_trace]
      exact ⟨rfl, rfl⟩
  | read =>
    cases hs : s.sel with
    | none =>
      simp only [State.respond, hsel, hs]
      exact ⟨unread s.readNothing (by rw [readNothing_regs]), fun _ => ⟨rfl, rfl⟩⟩
    | some r =>
      simp only [State.respond, hsel, hs]
      refine ⟨(unread s rfl).transferOut r, fun hr => ?_⟩
      have hread : (s.withStorage config upperTemp lowerTemp resolution).memRead r s.idx = s.memRead r s.idx :=
        memRead_congr (withStorage_get s r (hr r rfl)) s.idx
      rw [transferOut_res, transferOut_res, transferOut_trace, transferOut_trace, ← hread]
      exact ⟨rfl, rfl⟩

end

/-- Settles O36: with no event both states stay as they are, and an event delivered is answered alike. -/
theorem storageOnlyRegistersInfluenceNothing : Obligations.StorageOnlyRegistersInfluenceNothing := by
  intro s t config upperTemp lowerTemp resolution h hstep
  suffices hagree : ∃ t', step (s.withStorage config upperTemp lowerTemp resolution) = .next t' ∧ t'.AgreesBeyondStorage t ∧
      ((∀ r, s.sel = some r → r.storageOnly = false) → t'.res = t.res ∧ t'.trace = t.trace) by
    obtain ⟨t', ht', ha, hout⟩ := hagree
    refine ⟨t', ht', ha.regs .critTemp rfl, ha.regs .ambientTemp rfl, ha.regs .manufId rfl, ha.regs .deviceId rfl, ha.setting,
      ha.sel, ha.idx, ha.last, ha.devAddr, ha.env, ha.inbox, ha.draws, ha.ack, ha.err, fun h1 h2 h3 h4 => hout fun r hr => ?_⟩
    cases r
    case config => exact absurd hr h1
    case upperTemp => exact absurd hr h2
    case lowerTemp => exact absurd hr h3
    case resolution => exact absurd hr h4
    all_goals rfl
  rcases inbox_cases s with hi | ⟨a, rest, hi⟩
  · rw [step_nil s hi] at hstep
    cases hstep
    exact ⟨_, step_nil _ hi, withStorage_agrees s h, fun _ => ⟨rfl, rfl⟩⟩
  · rw [step_eq_respond s a rest hi] at hstep
    cases hstep
    exact ⟨_, step_eq_respond _ a rest hi, respond_withStorage (s.accept a rest) h (decodeEvent a.word)⟩

/-- Settles O28: RESOLUTION is read zero-extended from 8 bits, and every other register is 16 bits wide. -/
theorem registerValuesFitTheirWidth : Obligations.RegisterValuesFitTheirWidth := by
  intro x r
  by_cases hr : r = .resolution
  · subst hr
    rw [if_pos rfl, Regs.get, BitVec.toNat_setWidth_of_le (by decide)]
    exact x.resolution.isLt
  · rw [if_neg hr]
    exact (x.get r).isLt

end Sys2Proof.Machine

namespace Sys2Proof.Machine

/-! ### Reading a register out byte by byte (`20_memory.md` R41, R45) -/

/-- RESOLUTION is the only register that is not two bytes wide (`10_state.md` R11). -/
theorem width_eq_two {r : Reg} (h : r ≠ .resolution) : r.width = 2 := by
  cases r
  case resolution => exact absurd rfl h
  all_goals rfl

/-- Byte `i` of a register is its bits from `8 * i` on (`20_memory.md` R41). -/
theorem memRead_eq_extractLsb' (s : State) (r : Reg) (i : Nat) : s.memRead r i = (s.regs.get r).extractLsb' (8 * i) 8 := by
  apply BitVec.eq_of_getLsbD_eq
  intro k _
  rw [memRead_getLsbD, BitVec.getLsbD_extractLsb']

/-- A Read while a register is selected shows the byte at the cursor, moves the cursor down (or leaves the register after byte 0),
and changes no register (`42_bus_transactions.md` R122, R127). -/
theorem step_read_spec {s : State} {r : Reg} {w : EventWord} {e : Env} {rest : List Arrival} (hi : s.inbox = ⟨w, e⟩ :: rest)
    (hk : kindOf w = 0b10#2) (hs : s.sel = some r) :
    ∃ t, step s = .next t ∧ t.res.rdata = some ((s.regs.get r).extractLsb' (8 * s.idx) 8) ∧
      t.sel = (if s.idx = 0 then none else some r) ∧ t.idx = s.idx - 1 ∧ t.regs = s.regs ∧ t.inbox = rest :=
  ⟨_, step_read s r _ rest hi hk hs, by simp [memRead_eq_extractLsb'], by simp [hs], by simp, by simp, by simp⟩

/-- Settles O34: the select puts the cursor on byte 1, and the two Reads show bytes 1 and 0 of the registers it left. -/
theorem twoByteRegisterReadsHighByteFirst : Obligations.TwoByteRegisterReadsHighByteFirst := by
  intro s r e₁ e₂ e₃ w₂ w₃ rest hs hr hk₂ hk₃ hi
  obtain ⟨t₁, hstep₁, hsel₁, hidx₁, hinbox₁⟩ : ∃ t₁, step s = .next t₁ ∧ t₁.sel = some r ∧ t₁.idx = 1 ∧
      t₁.inbox = ⟨w₂, e₂⟩ :: ⟨w₃, e₃⟩ :: rest :=
    ⟨_, step_select s r e₁ _ hi hs, by simp, by simp [width_eq_two hr], by simp⟩
  obtain ⟨t₂, hstep₂, hrdata₂, hsel₂, hidx₂, hregs₂, hinbox₂⟩ := step_read_spec hinbox₁ hk₂ hsel₁
  rw [hidx₁] at hrdata₂ hsel₂ hidx₂
  obtain ⟨t₃, hstep₃, hrdata₃, hsel₃, _, hregs₃, _⟩ := step_read_spec hinbox₂ hk₃ hsel₂
  rw [hidx₂, hregs₂] at hrdata₃
  rw [hidx₂] at hsel₃
  exact ⟨t₁, t₂, t₃, hstep₁, hstep₂, hstep₃, hrdata₂, hrdata₃, hsel₃, hregs₃.trans hregs₂⟩

end Sys2Proof.Machine

namespace Sys2Proof

open Machine

/-! ### The patterns of the select bytes as ranges (`30_encoding.md` R67) -/

/-- The mask of the bits from `k` up clears the bits below `k`. -/
theorem toNat_and_highMask (p : Byte) (k : Nat) : (p &&& (BitVec.allOnes 8 <<< k)).toNat = p.toNat / 2 ^ k * 2 ^ k := by
  have hmask : p &&& (BitVec.allOnes 8 <<< k) = (p >>> k) <<< k := by
    apply BitVec.eq_of_getLsbD_eq
    intro i hi
    by_cases hk : i < k
    · simp [hk]
    · simp [-BitVec.reduceAllOnes, hi, hk, show k + (i - k) = i by omega]
  rw [hmask, BitVec.toNat_shiftLeft, BitVec.toNat_ushiftRight, Nat.shiftRight_eq_div_pow, Nat.shiftLeft_eq,
    Nat.mod_eq_of_lt ((Nat.div_mul_le_self _ _).trans_lt p.isLt)]

/-- A pattern whose mask is the bits from `k` up is matched by the `2 ^ k` bytes from its value on. -/
theorem matchesPattern_iff {value mask : Byte} (k : Nat) (hmask : mask = BitVec.allOnes 8 <<< k)
    (hvalue : value.toNat / 2 ^ k * 2 ^ k = value.toNat) (p : Byte) :
    matchesPattern value mask p = true ↔ value.toNat ≤ p.toNat ∧ p.toNat < value.toNat + 2 ^ k := by
  have hpos : 0 < 2 ^ k := Nat.two_pow_pos k
  rw [matchesPattern, beq_iff_eq, BitVec.toNat_eq, hmask, toNat_and_highMask, ← hvalue, Nat.mul_left_inj hpos.ne',
    Nat.div_eq_iff hpos]
  omega

theorem matchesPattern_0A_FE (p : Byte) : matchesPattern 0x0A 0xFE p = true ↔ 0x0A ≤ p.toNat ∧ p.toNat < 0x0C :=
  matchesPattern_iff 1 rfl rfl p

theorem matchesPattern_0C_FC (p : Byte) : matchesPattern 0x0C 0xFC p = true ↔ 0x0C ≤ p.toNat ∧ p.toNat < 0x10 :=
  matchesPattern_iff 2 rfl rfl p

theorem matchesPattern_10_F0 (p : Byte) : matchesPattern 0x10 0xF0 p = true ↔ 0x10 ≤ p.toNat ∧ p.toNat < 0x20 :=
  matchesPattern_iff 4 rfl rfl p

theorem matchesPattern_20_E0 (p : Byte) : matchesPattern 0x20 0xE0 p = true ↔ 0x20 ≤ p.toNat ∧ p.toNat < 0x40 :=
  matchesPattern_iff 5 rfl rfl p

theorem matchesPattern_40_C0 (p : Byte) : matchesPattern 0x40 0xC0 p = true ↔ 0x40 ≤ p.toNat ∧ p.toNat < 0x80 :=
  matchesPattern_iff 6 rfl rfl p

theorem matchesPattern_80_80 (p : Byte) : matchesPattern 0x80 0x80 p = true ↔ 0x80 ≤ p.toNat ∧ p.toNat < 0x100 :=
  matchesPattern_iff 7 rfl rfl p

/-! ### The select rows by their byte (`30_encoding.md` R65, R67) -/

/-- The byte of a select row: the pointer of the register it names, or the byte that names none. `none` for the other rows. -/
def Instr.selectByte (i : Instr) : Option Byte := (i.selected.map Reg.pointer).or i.invalidPointer

theorem encode_of_selectByte {i : Instr} {b : Byte} (hb : i.selectByte = some b) : encode i = writeWord b := by
  cases i <;> cases hb <;> rfl

theorem validIn_of_selectByte {i : Instr} {b : Byte} (hb : i.selectByte = some b) (m : BusState) :
    i.validIn m = (m == .idle) := by
  cases i <;> cases hb <;> rfl

theorem invalidPointer_of_selectByte {i : Instr} {b : Byte} (hb : i.selectByte = some b) (hp : Reg.ofPointer b = none) :
    i.invalidPointer = some b := by
  cases hs : i.selected with
  | none => simpa [Instr.selectByte, hs] using hb
  | some r =>
    obtain rfl : r.pointer = b := by simpa [Instr.selectByte, hs] using hb
    rw [ofPointer_pointer] at hp
    cases hp

/-- A byte is decoded to every well-formed select row that carries it: the rows do not overlap. -/
theorem decodeSelect_of_selectByte {i : Instr} {b : Byte} (hb : i.selectByte = some b) (hw : i.wellFormed = true) :
    decodeSelect b = i := by
  cases i with
  | connect | writeData | readData | readIdle | disconnect => cases hb
  | selInvalid0Ato0B | selInvalid0Cto0F | selInvalid10to1F | selInvalid20to3F | selInvalid40to7F | selInvalid80toFF =>
    cases hb
    simp only [Instr.wellFormed, matchesPattern_0A_FE, matchesPattern_0C_FC, matchesPattern_10_F0, matchesPattern_20_E0,
      matchesPattern_40_C0, matchesPattern_80_80] at hw
    simp (disch := omega) only [decodeSelect, BitVec.toNat_eq, BitVec.toNat_ofNat, matchesPattern_0A_FE,
      matchesPattern_0C_FC, matchesPattern_10_F0, matchesPattern_20_E0, matchesPattern_40_C0, if_neg, if_pos]
  | _ => cases hb; rfl

/-- Every byte has a select row that carries it: the rows leave no gap. -/
theorem exists_selectByte (b : Byte) : ∃ i : Instr, i.selectByte = some b ∧ i.wellFormed = true := by
  cases hp : Reg.ofPointer b with
  | some r =>
    obtain rfl := pointer_of_ofPointer hp
    exact ⟨decodeSelect r.pointer, by cases r <;> exact ⟨rfl, rfl⟩⟩
  | none =>
    have hb := (ofPointer_eq_none_iff b).mp hp
    rcases (by omega : b.toNat = 0x00 ∨ b.toNat = 0x09 ∨ (0x0A ≤ b.toNat ∧ b.toNat < 0x0C) ∨
      (0x0C ≤ b.toNat ∧ b.toNat < 0x10) ∨ (0x10 ≤ b.toNat ∧ b.toNat < 0x20) ∨ (0x20 ≤ b.toNat ∧ b.toNat < 0x40) ∨
      (0x40 ≤ b.toNat ∧ b.toNat < 0x80) ∨ (0x80 ≤ b.toNat ∧ b.toNat < 0x100)) with h | h | h | h | h | h | h | h
    · exact ⟨.selInvalid00, congrArg some (BitVec.eq_of_toNat_eq h.symm), rfl⟩
    · exact ⟨.selInvalid09, congrArg some (BitVec.eq_of_toNat_eq h.symm), rfl⟩
    · exact ⟨.selInvalid0Ato0B b, rfl, (matchesPattern_0A_FE b).mpr h⟩
    · exact ⟨.selInvalid0Cto0F b, rfl, (matchesPattern_0C_FC b).mpr h⟩
    · exact ⟨.selInvalid10to1F b, rfl, (matchesPattern_10_F0 b).mpr h⟩
    · exact ⟨.selInvalid20to3F b, rfl, (matchesPattern_20_E0 b).mpr h⟩
    · exact ⟨.selInvalid40to7F b, rfl, (matchesPattern_40_C0 b).mpr h⟩
    · exact ⟨.selInvalid80toFF b, rfl, (matchesPattern_80_80 b).mpr h⟩

theorem selectByte_decodeSelect (b : Byte) : (decodeSelect b).selectByte = some b := by
  obtain ⟨i, hb, hw⟩ := exists_selectByte b
  rw [decodeSelect_of_selectByte hb hw, hb]

theorem wellFormed_decodeSelect (b : Byte) : (decodeSelect b).wellFormed = true := by
  obtain ⟨i, hb, hw⟩ := exists_selectByte b
  rw [decodeSelect_of_selectByte hb hw, hw]

theorem selected_decodeSelect_pointer (r : Reg) : (decodeSelect r.pointer).selected = some r := by cases r <;> rfl

/-! ### Decoding and encoding by way of the event (`30_encoding.md` R61 to R66) -/

/-- The event word of an event, with the ignored payload of a Read or Disconnect cleared (R62 to R64). -/
def Event.word : Event → EventWord
  | .connect a d => connectWord a d
  | .write b => writeWord b
  | .read => readWord
  | .disconnect => disconnectWord

theorem decodeEvent_word (e : Event) : decodeEvent e.word = e := by
  cases e with
  | connect a d => exact decodeEvent_connectWord a d
  | write b => exact decodeEvent_writeWord b
  | read => exact decodeEvent_readWord
  | disconnect => exact decodeEvent_disconnectWord

/-- What an event is decoded to in a state is well formed, valid there, and encoded as the event's word. -/
theorem decodeIn_spec (m : BusState) (e : Event) :
    (decodeIn m e).wellFormed = true ∧ (decodeIn m e).validIn m = true ∧ encode (decodeIn m e) = e.word := by
  cases e with
  | connect a d => exact ⟨rfl, rfl, rfl⟩
  | write b =>
    cases m with
    | idle =>
      have hb := selectByte_decodeSelect b
      exact ⟨wellFormed_decodeSelect b, validIn_of_selectByte hb .idle, encode_of_selectByte hb⟩
    | registerSelected => exact ⟨rfl, rfl, rfl⟩
  | read => cases m <;> exact ⟨rfl, rfl, rfl⟩
  | disconnect => exact ⟨rfl, rfl, rfl⟩

/-- Every well-formed instruction is what some event is decoded to, in each state it is valid in. -/
theorem exists_decodeIn_eq {i : Instr} {m : BusState} (hw : i.wellFormed = true) (hv : i.validIn m = true) :
    ∃ e, decodeIn m e = i := by
  cases i with
  | connect a d => exact ⟨.connect a d, rfl⟩
  | disconnect => exact ⟨.disconnect, rfl⟩
  | readData | readIdle =>
    obtain rfl := beq_iff_eq.mp hv
    exact ⟨.read, rfl⟩
  | writeData b =>
    obtain rfl := beq_iff_eq.mp hv
    exact ⟨.write b, rfl⟩
  | _ =>
    obtain rfl := beq_iff_eq.mp hv
    exact ⟨.write _, decodeSelect_of_selectByte rfl hw⟩

/-- Settles O4: the instruction is what some event is decoded to, its encoding is that event's word, and the word gives the event
back. -/
theorem decodeOfEncodeIsTheInstruction : Obligations.DecodeOfEncodeIsTheInstruction := by
  intro i m hw hv
  obtain ⟨e, rfl⟩ := exists_decodeIn_eq hw hv
  obtain ⟨-, -, he⟩ := decodeIn_spec m e
  rw [decode, he, decodeEvent_word]

/-- Settles O3: the bytes that name a register are its pointers, and every other byte is carried by an invalid select. -/
theorem transactionStateSelectsTheRow : Obligations.TransactionStateSelectsTheRow := by
  refine ⟨fun b => ⟨fun hb => ?_, fun hb => ?_, rfl⟩, rfl, rfl, fun m a d => ⟨rfl, rfl⟩⟩
  · obtain ⟨r, hr⟩ := Option.ne_none_iff_exists'.mp fun hn => (ofPointer_eq_none_iff b).mp hn hb
    obtain rfl := pointer_of_ofPointer hr
    exact ⟨r, selected_decodeSelect_pointer r, rfl⟩
  · have hp := (ofPointer_eq_none_iff b).mpr hb
    exact ⟨invalidPointer_of_selectByte (selectByte_decodeSelect b) hp, wellFormed_decodeSelect b⟩

/-! ### Event words as numbers (`30_encoding.md` R61 to R63, R72) -/

theorem toNat_kindOf (w : EventWord) : (kindOf w).toNat = w.toNat / 256 := by
  rw [kindOf, BitVec.extractLsb'_toNat, Nat.shiftRight_eq_div_pow]
  exact Nat.mod_eq_of_lt (by omega)

theorem kindOf_eq_iff (w : EventWord) (k : BitVec 2) : kindOf w = k ↔ w.toNat / 256 = k.toNat := by
  rw [BitVec.toNat_eq, toNat_kindOf]

theorem payloadOf_eq_ofNat (w : EventWord) : payloadOf w = BitVec.ofNat 8 w.toNat := rfl

theorem toNat_connectWord (a : BitVec 7) (d : Bool) : (connectWord a d).toNat = a.toNat * 2 + d.toNat := by
  rw [connectWord, BitVec.toNat_append, BitVec.toNat_append, BitVec.toNat_ofBool,
    ← Nat.shiftLeft_add_eq_or_of_lt (i := 1) d.toNat_lt]
  simp [Nat.shiftLeft_eq]

theorem toNat_writeWord (b : Byte) : (writeWord b).toNat = 256 + b.toNat := by
  rw [writeWord, BitVec.toNat_append, ← Nat.shiftLeft_add_eq_or_of_lt b.isLt]
  rfl

/-- Settles O2: the kind picks the branch of the decoder, and the fields are the payload's bits as numbers. -/
theorem everyEventWordDecodesByKind : Obligations.EveryEventWordDecodesByKind := by
  intro w
  refine ⟨fun h => ?_, fun h => ?_, fun h => ?_, fun h => ?_⟩
  · have hk : kindOf w = 0b00#2 := (kindOf_eq_iff w _).mpr h
    have hd : w.getLsbD 0 = decide (w.toNat % 2 = 1) := Nat.testBit_zero w.toNat
    rw [decodeEvent, if_pos hk, hd]
    rfl
  · have hk : kindOf w = 0b01#2 := (kindOf_eq_iff w _).mpr h
    simp [decodeEvent, hk, payloadOf_eq_ofNat]
  · have hk : kindOf w = 0b10#2 := (kindOf_eq_iff w _).mpr h
    simp [decodeEvent, hk]
  · have hk : kindOf w = 0b11#2 := (kindOf_eq_iff w _).mpr h
    simp [decodeEvent, hk]

/-- Encoding the event of a word gives the word back where the payload counts, and else its kind above a clear payload. -/
theorem toNat_word_decodeEvent (w : EventWord) :
    (decodeEvent w).word.toNat = if w.toNat < 512 then w.toNat else w.toNat / 256 * 256 := by
  obtain ⟨hconnect, hwrite, hread, hdisconnect⟩ := everyEventWordDecodesByKind w
  rcases (by omega : w.toNat / 256 = 0 ∨ w.toNat / 256 = 1 ∨ w.toNat / 256 = 2 ∨ w.toNat / 256 = 3) with h | h | h | h
  · rw [hconnect h, if_pos (by omega), Event.word, toNat_connectWord, BitVec.toNat_ofNat]
    by_cases hd : w.toNat % 2 = 1 <;> simp [hd] <;> omega
  · rw [hwrite h, if_pos (by omega), Event.word, toNat_writeWord, BitVec.toNat_ofNat]
    omega
  · rw [hread h, if_neg (by omega), h]
    rfl
  · rw [hdisconnect h, if_neg (by omega), h]
    rfl

/-- Settles O5: the decoded instruction is encoded as the word of the word's event. -/
theorem encodeOfDecodeIsTheWord : Obligations.EncodeOfDecodeIsTheWord := by
  intro m w
  obtain ⟨hw, hv, he⟩ := decodeIn_spec m (decodeEvent w)
  exact ⟨hw, hv, (congrArg BitVec.toNat he).trans (toNat_word_decodeEvent w)⟩

/-- Settles O1, by running the decoder on the eleven words. -/
theorem listedEventWordsDecode : Obligations.ListedEventWordsDecode := by
  unfold Obligations.ListedEventWordsDecode
  decide

end Sys2Proof

namespace Sys2Proof.Machine

/-- The meaning of every instruction is guarded as its row's "state" column says: by nothing, by Idle or by RegisterSelected
(`30_encoding.md` R65, R66). -/
theorem exec_guard_cases (i : Instr) (s : State) :
    ((∃ t, exec i s = .next t) ∧ ∀ m, i.validIn m = true) ∨
    ((∃ t, exec i s = whileIdle s t) ∧ ∀ m, i.validIn m = (m == .idle)) ∨
    ((∃ f, exec i s = whileSelected s f) ∧ ∀ m, i.validIn m = (m == .registerSelected)) := by
  cases i with
  | connect | disconnect => exact .inl ⟨⟨_, rfl⟩, fun _ => rfl⟩
  | writeData | readData => exact .inr (.inr ⟨⟨_, rfl⟩, fun _ => rfl⟩)
  | _ => exact .inr (.inl ⟨⟨_, rfl⟩, fun _ => rfl⟩)

/-- Settles O8, by the guard of the instruction's meaning. -/
theorem instructionCompletesExactlyWhereValid : Obligations.InstructionCompletesExactlyWhereValid := by
  intro i s
  rcases exec_guard_cases i s with ⟨⟨t, ht⟩, hv⟩ | ⟨⟨t, ht⟩, hv⟩ | ⟨⟨f, ht⟩, hv⟩ <;> rw [ht, hv]
  · exact ⟨fun _ => ⟨t, rfl⟩, nofun⟩
  · cases hs : s.sel <;> simp [whileIdle, hs, State.busState]
  · cases hs : s.sel <;> simp [whileSelected, hs, State.busState]

/-! ### The result of an event (`30_encoding.md` R68) -/

theorem pointer_toNat_range (r : Reg) : 1 ≤ r.pointer.toNat ∧ r.pointer.toNat ≤ 8 := by cases r <;> decide

theorem readOnly_iff (r : Reg) : r.readOnly = true ↔ r = .ambientTemp ∨ r = .manufId ∨ r = .deviceId := by
  cases r <;> decide

theorem toNat_writeWord_mod (b : Byte) : (writeWord b).toNat % 256 = b.toNat := by
  rw [toNat_writeWord]
  omega

/-- The words below 512 are those of a Connect or a Write. -/
theorem toNat_lt_512_iff (w : EventWord) : w.toNat < 512 ↔ kindOf w = 0b00#2 ∨ kindOf w = 0b01#2 := by
  rw [kindOf_eq_iff, kindOf_eq_iff, BitVec.toNat_ofNat, BitVec.toNat_ofNat]
  omega

/-- Settles O33, by what the event is in the state it meets. -/
theorem resultOfEveryEvent : Obligations.ResultOfEveryEvent := by
  intro s t a rest hi h
  simp only [toNat_lt_512_iff]
  rcases step_cases h with ⟨hnil, _⟩ | ⟨a', rest', u, hcons, rfl, ht⟩
  · rw [hnil] at hi
    cases hi
  · obtain ⟨rfl, rfl⟩ := List.cons.inj (hi.symm.trans hcons)
    rcases ht with ⟨hk, rfl⟩ | ⟨r, hk, hw, hs, rfl⟩ | ⟨b, hk, hw, hs, hb, rfl⟩ | ⟨r, b, hk, _, hs, rfl⟩ | ⟨r, hk, hs, rfl⟩ |
      ⟨hk, hs, rfl⟩ | ⟨hk, rfl⟩
    · simp [hk, Result.empty]
    · have hp : a.word.toNat % 256 = r.pointer.toNat := by rw [hw, toNat_writeWord_mod]
      simp [hk, hs, hp, pointer_toNat_range]
    · have hp : a.word.toNat % 256 = b.toNat := by rw [hw, toNat_writeWord_mod]
      rw [ofPointer_eq_none_iff, ← hp] at hb
      simp [hk, hs, hb]
    · simp [hk, hs, readOnly_iff]
    · simp [hk, hs]
    · simp [hk, hs]
    · simp [hk, Result.empty]

end Sys2Proof.Machine

namespace Sys2Proof

/-! ### The address resolver (`40_address_resolver.md`) -/

/-- The OR of R80 is a sum: the three line levels take bits 2, 1 and 0, which `baseAddr` leaves clear. -/
theorem toNat_resolveAddress (pin : Fin 3 → Bool) :
    (resolveAddress pin).toNat =
      0x18 + ((if pin 2 then 4 else 0) + (if pin 1 then 2 else 0) + (if pin 0 then 1 else 0)) := by
  simp only [resolveAddress]
  cases pin 2 <;> cases pin 1 <;> cases pin 0 <;> rfl

/-- Settles O23: the range is that of the sum, whose pin part is at most 7. -/
theorem resolvedAddressIsBaseOrPins : Obligations.ResolvedAddressIsBaseOrPins := by
  intro pin
  have h := toNat_resolveAddress pin
  refine ⟨h, ?_, ?_⟩ <;> rw [h]
  · exact Nat.le_add_right ..
  · split_ifs <;> decide

end Sys2Proof

namespace Sys2Proof

/-! ### Truncation toward zero (`00_scope.md` R6) -/

theorem truncTowardZero_of_nonneg {q : ℚ} (h : 0 ≤ q) : truncTowardZero q = ⌊q⌋ := if_pos h

theorem truncTowardZero_neg (q : ℚ) : truncTowardZero (-q) = -truncTowardZero q := by
  rcases lt_trichotomy q 0 with h | rfl | h
  · rw [truncTowardZero_of_nonneg (neg_nonneg.mpr h.le), truncTowardZero, if_neg h.not_ge, Int.floor_neg]
  · rfl
  · rw [truncTowardZero_of_nonneg h.le, truncTowardZero, if_neg (by simpa using h), Int.ceil_neg]

end Sys2Proof

namespace Sys2Proof.Machine

/-! ### The fields of a binary32 pattern and its value (IEEE 754, assumption 4) -/

theorem signBit_iff (t : Binary32) : signBit t = true ↔ t.toNat / 2 ^ 31 = 1 := by
  have := t.isLt
  rw [signBit, BitVec.getLsbD, Nat.testBit_eq_decide_div_mod_eq, decide_eq_true_eq]
  omega

theorem exponentField_eq (t : Binary32) : exponentField t = t.toNat / 2 ^ 23 % 2 ^ 8 := by
  rw [exponentField, BitVec.extractLsb'_toNat, Nat.shiftRight_eq_div_pow]

theorem fractionField_eq (t : Binary32) : fractionField t = t.toNat % 2 ^ 23 := by
  rw [fractionField, BitVec.extractLsb'_toNat, Nat.shiftRight_zero]

theorem isFinite_iff (t : Binary32) : isFinite t = true ↔ exponentField t ≠ 255 := bne_iff_ne

/-- The integer significand of a finite pattern: the hidden one above the fraction, which a zero or a subnormal lacks. -/
def significand (t : Binary32) : ℕ := if exponentField t = 0 then fractionField t else 2 ^ 23 + fractionField t

/-- The biased exponent that scales the significand: a subnormal is scaled as if its field were 1. -/
def scaleExponent (t : Binary32) : ℕ := if exponentField t = 0 then 1 else exponentField t

/-- The exact magnitude of a finite pattern. -/
def magnitude (t : Binary32) : ℚ := significand t * 2 ^ ((scaleExponent t : ℤ) - 150)

theorem magnitude_nonneg (t : Binary32) : 0 ≤ magnitude t := by
  unfold magnitude
  positivity

/-- The magnitude as IEEE 754 writes it, the binary point after the leading bit of the significand. -/
theorem magnitude_eq_ieee754 (t : Binary32) : magnitude t =
    if exponentField t = 0 then (fractionField t : ℚ) / 2 ^ 23 * 2 ^ (-126 : ℤ)
    else (1 + (fractionField t : ℚ) / 2 ^ 23) * 2 ^ ((exponentField t : ℤ) - 127) := by
  have scale (m : ℚ) (e : ℤ) : m * 2 ^ (e - 150) = m / 2 ^ 23 * 2 ^ (e - 127) := by
    rw [show e - 127 = (e - 150) + (23 : ℕ) by omega, zpow_add₀ two_ne_zero, zpow_natCast]
    ring
  rw [magnitude, scale, significand, scaleExponent]
  split
  · rfl
  · push_cast
    ring

/-- The rational measure of a pattern is the model's significand, scaled and signed. -/
theorem binary32Value_eq (t : Binary32) : binary32Value t =
    if isFinite t then some (if signBit t then -magnitude t else magnitude t) else none := by
  have hsign : (if t.toNat / 2 ^ 31 = 1 then (-1 : ℚ) else 1) = if signBit t then -1 else 1 := by simp only [signBit_iff]
  have hvalue : (if signBit t then -magnitude t else magnitude t) = (if signBit t then -1 else 1) * magnitude t := by
    split <;> ring
  simp only [binary32Value, ← exponentField_eq, ← fractionField_eq, hsign, hvalue, isFinite_iff]
  by_cases h255 : exponentField t = 255
  · rw [if_pos h255, if_neg (not_not.mpr h255)]
  · rw [if_neg h255, if_pos h255, mul_assoc, mul_assoc, ← apply_ite some, ← mul_ite, ← magnitude_eq_ieee754]

theorem truncMagnitude16_eq (t : Binary32) : truncMagnitude16 t =
    if 146 ≤ scaleExponent t then significand t * 2 ^ (scaleExponent t - 146) else significand t / 2 ^ (146 - scaleExponent t) :=
  rfl

/-- The model's natural-number truncation is the floor of the exact product. -/
theorem truncMagnitude16_eq_floor (t : Binary32) : (truncMagnitude16 t : ℤ) = ⌊magnitude t * 16⌋ := by
  have h16 : magnitude t * 16 = significand t * 2 ^ ((scaleExponent t : ℤ) - 146) := by
    rw [magnitude, mul_assoc, show (16 : ℚ) = 2 ^ (4 : ℤ) by norm_num, ← zpow_add₀ two_ne_zero]
    ring_nf
  rw [truncMagnitude16_eq, h16]
  split
  case isTrue h =>
    obtain ⟨k, hk⟩ := Nat.exists_eq_add_of_le h
    rw [hk, Nat.add_sub_cancel_left, Nat.cast_add, Nat.cast_ofNat, add_sub_cancel_left, zpow_natCast]
    exact_mod_cast (Int.floor_natCast (R := ℚ) _).symm
  case isFalse h =>
    obtain ⟨k, hk⟩ := Nat.exists_eq_add_of_le (Nat.le_of_not_le h)
    rw [show 146 - scaleExponent t = k by omega, show (scaleExponent t : ℤ) - 146 = -(k : ℤ) by omega, zpow_neg, zpow_natCast,
      ← div_eq_mul_inv]
    exact_mod_cast (Rat.floor_natCast_div_natCast _ _).symm

/-- The model's truncated sixteenfold is that of the pattern's exact value (`41_temperature_sampler.md` R96). -/
theorem trunc16_of_value {t : Binary32} {v : ℚ} (h : binary32Value t = some v) : trunc16 t = truncTowardZero (v * 16) := by
  have hm : truncTowardZero (magnitude t * 16) = truncMagnitude16 t := by
    rw [truncTowardZero_of_nonneg (mul_nonneg (magnitude_nonneg t) (by norm_num)), truncMagnitude16_eq_floor]
  rw [binary32Value_eq] at h
  split at h
  case isFalse => cases h
  case isTrue =>
    cases h
    rw [trunc16]
    split
    · rw [neg_mul, truncTowardZero_neg, hm]
    · exact hm.symm

theorem isFinite_of_value {t : Binary32} {v : ℚ} (h : binary32Value t = some v) : isFinite t = true := by
  rw [binary32Value_eq] at h
  exact (Option.ite_none_right_eq_some.mp h).1

/-- The conversion where the product is in int32 range. -/
theorem q4_of_value {t : Binary32} {v : ℚ} (h : binary32Value t = some v) (hlo : -2 ^ 31 ≤ truncTowardZero (v * 16))
    (hhi : truncTowardZero (v * 16) ≤ 2 ^ 31 - 1) : q4 t = some (BitVec.ofInt 16 (truncTowardZero (v * 16))) := by
  rw [q4, trunc16_of_value h, if_pos ⟨isFinite_of_value h, hlo, hhi⟩]

/-- The conversion is open for NaN, the infinities and a product out of int32 range. -/
theorem q4_eq_none {t : Binary32} (h : ∀ v, binary32Value t = some v →
    truncTowardZero (v * 16) < -2 ^ 31 ∨ 2 ^ 31 - 1 < truncTowardZero (v * 16)) : q4 t = none := by
  refine if_neg fun ⟨hfin, hlo, hhi⟩ => ?_
  have hv := (binary32Value_eq t).trans (if_pos hfin)
  have := h _ hv
  rw [trunc16_of_value hv] at hlo hhi
  omega

theorem rawSample_of_q4 {s : State} {raw : Half} (h : q4 s.env.tempIn = some raw) : s.rawSample = raw := by
  rw [State.rawSample, h, Option.getD_some]

/-- Settles O17: the conversion takes the truncated product where it is in range, and the draw elsewhere. -/
theorem conversionTruncatesTowardZeroAndWraps : Obligations.ConversionTruncatesTowardZeroAndWraps := by
  intro s
  refine ⟨fun v hv hlo hhi => ?_, fun hout => ?_⟩
  · have hq := q4_of_value hv hlo hhi
    refine ⟨?_, by simp [hq]⟩
    rw [rawSample_of_q4 hq, BitVec.toNat_ofInt]
    omega
  · have hq := q4_eq_none hout
    exact ⟨by rw [State.rawSample, hq, Option.getD_none], hq⟩

/-- The low 13 bits of a wrapped integer are the integer wrapped to 13 bits. -/
theorem extractLsb'_13_ofInt_16 (n : ℤ) : (BitVec.ofInt 16 n).extractLsb' 0 13 = BitVec.ofInt 13 n := by
  apply BitVec.eq_of_toNat_eq
  rw [BitVec.extractLsb'_toNat, Nat.shiftRight_zero, BitVec.toNat_ofInt, BitVec.toNat_ofInt]
  omega

/-- Settles O18: TA is the truncated product wrapped to 13 bits, which keeps its range as it is. -/
theorem ambientFieldReadsBackTheTemperature : Obligations.AmbientFieldReadsBackTheTemperature := by
  intro s v hg hv hlo hhi
  have hq := q4_of_value hv (by omega) (by omega)
  rw [sample_ambient_of_taken s hg, composeAmbient_ta, rawSample_of_q4 hq, extractLsb'_13_ofInt_16, BitVec.toInt_ofInt]
  exact Int.bmod_eq_of_le (by omega) (by omega)

/-! ### The gate and the composition (`41_temperature_sampler.md` R92 to R100) -/

/-- The floors of R92 as a list, by RESOLUTION[1:0]. -/
theorem floorOf_res (x : Regs) : (floorOf x.res : ℤ) = [30, 65, 130, 250].getD (x.resolution.toNat % 4) 0 := by
  rw [← res_toNat]
  generalize x.res = r
  revert r
  decide

theorem gateSkips_iff (s : State) :
    s.gateSkips = true ↔ ∃ l, s.last = some l ∧ (s.env.now : ℤ) - l < floorOf s.regs.res := by
  unfold State.gateSkips
  cases s.last <;> simp

theorem drawsAfterConversion_eq (s : State) :
    s.drawsAfterConversion = if q4 s.env.tempIn = none then s.draws + 1 else s.draws := by
  unfold State.drawsAfterConversion
  cases q4 s.env.tempIn <;> rfl

theorem toNat_critFlag (raw thr : Half) : (critFlag raw thr).toNat = if thr.toNat ≤ raw.toNat then 1 else 0 := by
  unfold critFlag
  split <;> rfl

/-- Settles O16: the two cases are the gate closed and open, and the composition of a sample taken is a sum. -/
theorem samplerGatesConvertsAndComposes : Obligations.SamplerGatesConvertsAndComposes := by
  intro s floor raw
  have hfloor : (floorOf s.regs.res : ℤ) = floor := floorOf_res s.regs
  refine ⟨fun hskip => sample_of_skips s ?_, fun htaken => ?_⟩
  · rwa [gateSkips_iff, hfloor]
  · have hg : s.gateSkips = false := by
      rw [← Bool.not_eq_true, gateSkips_iff, hfloor]
      rintro ⟨l, hl, hlt⟩
      exact (htaken l hl).not_gt hlt
    rw [sample_of_taken s hg, drawsAfterConversion_eq, composeAmbient_eq_ofNat, toNat_critFlag, ite_mul, one_mul, zero_mul]
    rfl

/-! ### Which events sample (`41_temperature_sampler.md` R90, R94) -/

/-- The first sample is always taken, at the time present. -/
theorem sample_last_of_never {s : State} (h : s.last = none) : s.sample.last = some s.env.now := by
  rw [sample_of_taken s (gateSkips_of_never s h)]

/-- Settles O21: an Idle Write samples whether or not its byte names a register. -/
theorem firstSelectAlwaysSamples : Obligations.FirstSelectAlwaysSamples := by
  intro s b e rest hi hs hl
  have hsample : (s.accept ⟨writeWord b, e⟩ rest).sample.last = some e.now := sample_last_of_never hl
  refine ⟨_, step_eq_respond s _ rest hi, ?_⟩
  rw [decodeEvent_writeWord]
  cases hp : Reg.ofPointer b <;> simp [State.respond, hs, hp, hsample]

/-- A byte written into another register leaves AMBIENT_TEMP alone. -/
theorem memWrite_ambientTemp_of_ne (s : State) {r : Reg} (h : r ≠ .ambientTemp) (i : Nat) (b : Byte) :
    (s.memWrite r i b).regs.ambientTemp = s.regs.ambientTemp :=
  memWrite_get_other s r .ambientTemp i b h.symm

/-- Settles O22, by what the event is in the state it meets: the two selects are Idle Writes, and only a data write touches a register. -/
theorem onlyIdleWritesRunTheSampler : Obligations.OnlyIdleWritesRunTheSampler := by
  intro s t a rest hi h hno
  rcases step_cases h with ⟨hnil, _⟩ | ⟨a', rest', u, hcons, rfl, ht⟩
  · rw [hnil] at hi
    cases hi
  · obtain ⟨rfl, rfl⟩ := List.cons.inj (hi.symm.trans hcons)
    rcases ht with ⟨_, rfl⟩ | ⟨r, hk, _, hs, rfl⟩ | ⟨b, hk, _, hs, _, rfl⟩ | ⟨r, b, hk, _, hs, rfl⟩ | ⟨r, _, _, rfl⟩ | ⟨_, _, rfl⟩ |
      ⟨_, rfl⟩
    · simp
    · exact absurd ⟨hs, hk⟩ hno
    · exact absurd ⟨hs, hk⟩ hno
    · refine ⟨by simp, by simp, fun hne => ⟨?_, hk⟩⟩
      rw [transferIn_regs] at hne
      have hr : r = .ambientTemp := by_contra fun hr => hne (memWrite_ambientTemp_of_ne _ hr _ b)
      rw [hs, hr]
    · simp
    · simp
    · simp

end Sys2Proof.Machine

namespace Sys2Proof.Machine

/-! ### What each instruction does (`42_bus_transactions.md` R120, R123 to R129) -/

theorem busState_eq_ite (s : State) : s.busState = if s.sel = none then .idle else .registerSelected := by
  cases hs : s.sel <;> simp [State.busState, hs]

/-- Settles O6: the state of the transaction machine is whether a register is selected. -/
theorem stepRunsTheDecodedEvent : Obligations.StepRunsTheDecodedEvent := by
  intro s
  refine ⟨fun a rest hi => ?_, step_nil s⟩
  rw [step_cons s a rest hi, busState_eq_ite]
  rfl

/-- Settles O9: the meaning of CONNECT touches nothing but the result. -/
theorem connectOnlyAcknowledges : Obligations.ConnectOnlyAcknowledges := fun _ _ _ => rfl

/-- Settles O10: the meaning of DISCONNECT touches nothing but the result. -/
theorem disconnectChangesNothing : Obligations.DisconnectChangesNothing := fun _ => rfl

theorem whileIdle_of_idle {s : State} (h : s.sel = none) (t : State) : whileIdle s t = .next t := by
  simp [whileIdle, h]

theorem whileSelected_of_selected {s : State} {r : Reg} (h : s.sel = some r) (f : Reg → State) :
    whileSelected s f = .next (f r) := by
  simp [whileSelected, h]

/-- Settles O11: `readNothing` is the meaning of READ_IDLE while Idle. -/
theorem idleReadReturnsSentinelAndError : Obligations.IdleReadReturnsSentinelAndError := by
  intro s hs
  exact whileIdle_of_idle hs s.readNothing

/-- Byte `i` of a register as a number (`20_memory.md` R41). -/
theorem memRead_eq_ofNat (s : State) (r : Reg) (i : Nat) :
    s.memRead r i = BitVec.ofNat 8 ((s.regs.get r).toNat / 2 ^ (8 * i)) := by
  apply BitVec.eq_of_toNat_eq
  simp [State.memRead, Nat.shiftRight_eq_div_pow]

/-- Settles O12, field by field of the state `transferOut` leaves. -/
theorem selectedReadReturnsCursorByteAndAdvances : Obligations.SelectedReadReturnsCursorByteAndAdvances := by
  intro s r hs byte
  have hbyte : s.memRead r s.idx = byte := memRead_eq_ofNat s r s.idx
  have hexec : exec .readData s = .next (s.transferOut r) := whileSelected_of_selected hs _
  rw [hexec]
  refine congrArg _ (State.eq_of_fields ?_ ?_ ?_ ?_ ?_ ?_ ?_ ?_ ?_ ?_) <;> simp [hs, hbyte]

/-- The accumulate write as arithmetic (`20_memory.md` R42). -/
theorem toNat_memWrite_get (s : State) (r : Reg) (i : Nat) (b : Byte) :
    ((s.memWrite r i b).regs.get r).toNat = ((s.regs.get r).toNat ||| b.toNat * 2 ^ (8 * i)) % 2 ^ (8 * r.width) := by
  apply Nat.eq_of_testBit_eq
  intro k
  rw [BitVec.testBit_toNat, memWrite_getLsbD_same, Nat.testBit_mod_two_pow, Nat.testBit_or, Nat.testBit_mul_two_pow,
    BitVec.testBit_toNat, BitVec.testBit_toNat]
  by_cases hk : k < 8 * r.width
  · simp [hk]
  · simp [hk, get_getLsbD_above s.regs r k (by omega)]

theorem transferIn_memRead (s : State) (r r' : Reg) (b : Byte) (i : Nat) :
    (s.transferIn r b).memRead r' i = (s.memWrite r s.idx b).memRead r' i :=
  memRead_congr (by rw [transferIn_regs]) i

/-- Settles O13: the registers are those of the byte write, and the other fields are as `transferIn` leaves them. -/
theorem dataWriteAccumulatesIntoCursorByte : Obligations.DataWriteAccumulatesIntoCursorByte := by
  intro s r b hs
  refine ⟨s.transferIn r b, whileSelected_of_selected hs _, ?_, fun r' hr => ?_, fun r' i _ hne => ?_, fun hidx => ?_, ?_, ?_, ?_, ?_⟩
  · rw [transferIn_regs, toNat_memWrite_get]
  · rw [transferIn_regs, memWrite_get_other s r r' s.idx b hr]
  · rw [transferIn_memRead, memRead_memWrite_other s r r' s.idx i b hne]
  · rw [transferIn_memRead, memRead_memWrite_same s r s.idx b hidx]
  · rw [transferIn_sel, hs]
  · rw [transferIn_idx]
  · simp only [← readOnly_iff]
    split <;> simp [*]
  · simp

theorem exec_of_selected {i : Instr} {r : Reg} (hi : i.selected = some r) {s : State} (hs : s.sel = none) :
    exec i s = .next (s.selectRegister r) := by
  cases i <;> cases hi <;> exact whileIdle_of_idle hs _

theorem exec_of_invalidPointer {i : Instr} {b : Byte} (hi : i.invalidPointer = some b) {s : State} (hs : s.sel = none) :
    exec i s = .next (s.selectNothing b) := by
  cases i <;> cases hi <;> exact whileIdle_of_idle hs _

/-- The byte index a select starts at (`42_bus_transactions.md` R124). -/
theorem width_sub_one (r : Reg) : r.width - 1 = if r = .resolution then 0 else 1 := by cases r <;> rfl

/-- Settles O14, field by field of the state `selectRegister` leaves. -/
theorem validSelectSamplesThenPointsAtTopByte : Obligations.ValidSelectSamplesThenPointsAtTopByte := by
  intro s hs p hp
  have hsel : p.1.selected = some p.2 := by
    revert p
    decide
  rw [exec_of_selected hsel hs]
  refine congrArg _ (State.eq_of_fields ?_ ?_ ?_ ?_ ?_ ?_ ?_ ?_ ?_ ?_) <;> simp [width_sub_one]

/-- Settles O15, field by field of the state `selectNothing` leaves. -/
theorem invalidSelectSamplesAndStaysIdle : Obligations.InvalidSelectSamplesAndStaysIdle := by
  intro s ptr hs p hp
  have hptr : p.1.invalidPointer = some p.2 := by
    simp only [List.mem_cons, List.not_mem_nil, or_false] at hp
    rcases hp with rfl | rfl | rfl | rfl | rfl | rfl | rfl | rfl <;> rfl
  rw [exec_of_invalidPointer hptr hs]
  refine congrArg _ (State.eq_of_fields ?_ ?_ ?_ ?_ ?_ ?_ ?_ ?_ ?_ ?_) <;> simp

/-! ### The transitions of the transaction machine (`42_bus_transactions.md` R121) -/

theorem respond_inbox (s : State) (e : Event) : (s.respond e).inbox = s.inbox := by
  cases e with
  | connect | disconnect => rfl
  | write b =>
    cases hs : s.sel with
    | none => cases hp : Reg.ofPointer b <;> simp [State.respond, hs, hp]
    | some r => simp [State.respond, hs]
  | read => cases hs : s.sel <;> simp [State.respond, hs]

/-- With `r` selected, the cursor moves exactly on a transfer. -/
theorem respond_cursor_of_selected {s : State} {r : Reg} (hs : s.sel = some r) (w : EventWord) :
    (s.respond (decodeEvent w)).sel = (if isTransfer w = true ∧ s.idx = 0 then none else some r) ∧
    (s.respond (decodeEvent w)).idx = if isTransfer w = true then s.idx - 1 else s.idx := by
  rcases decodeEvent_cases w with ⟨hk, _, _, he⟩ | ⟨hk, _, he⟩ | ⟨hk, he⟩ | ⟨hk, he⟩ <;>
    simp [he, State.respond, hs, isTransfer, hk]

/-- While Idle, only a Write of a pointer selects a register. -/
theorem respond_cursor_of_idle {s : State} (hs : s.sel = none) (w : EventWord) (r : Reg) :
    ((s.respond (decodeEvent w)).sel = some r ↔ w = writeWord r.pointer) ∧
    ((s.respond (decodeEvent w)).sel = some r → (s.respond (decodeEvent w)).idx = r.width - 1) := by
  have hkind (hne : kindOf w ≠ 0b01#2) : w ≠ writeWord r.pointer := fun h => hne (by rw [h, kindOf_writeWord])
  rcases decodeEvent_cases w with ⟨hk, _, _, he⟩ | ⟨_, hw, he⟩ | ⟨hk, he⟩ | ⟨hk, he⟩
  · simp [he, State.respond, hs, hkind (by simp [hk])]
  · generalize payloadOf w = b at hw he
    subst hw
    have hword : writeWord b = writeWord r.pointer ↔ b = r.pointer := ⟨writeWord_injective, congrArg _⟩
    rw [he, hword]
    cases hp : Reg.ofPointer b with
    | none =>
      have hne : b ≠ r.pointer := by
        rintro rfl
        simp [ofPointer_pointer] at hp
      simp [State.respond, hs, hp, hne]
    | some r' =>
      obtain rfl := pointer_of_ofPointer hp
      have hptr : r'.pointer = r.pointer ↔ r' = r := ⟨pointer_injective, congrArg _⟩
      by_cases hr : r' = r
      · subst hr
        simp [State.respond, hs, hp]
      · simp [State.respond, hs, hp, hptr, hr]
  · simp [he, State.respond, hs, hkind (by simp [hk])]
  · simp [he, State.respond, hs, hkind (by simp [hk])]

/-- Settles O31, by the two states the event can meet. -/
theorem transitionsAreSelectAndLastTransfer : Obligations.TransitionsAreSelectAndLastTransfer := by
  intro s t a rest hi h
  rw [step_eq_respond s a rest hi] at h
  cases h
  exact ⟨fun hs r => respond_cursor_of_idle (by simpa using hs) a.word r,
    fun r hs => (respond_cursor_of_selected (by simpa using hs) a.word).1⟩

/-! ### An access takes the width of its register in transfers (`42_bus_transactions.md` R130 to R132) -/

/-- `n` more byte transfers complete the access to `r`; with none to come the machine is Idle. -/
def State.Awaits (s : State) (r : Reg) : Nat → Prop
  | 0 => s.sel = none
  | n + 1 => s.sel = some r ∧ s.idx = n

theorem selectRegister_awaits (s : State) (r : Reg) : (s.selectRegister r).Awaits r r.width := by
  rw [← Nat.sub_add_cancel (width_pos r)]
  exact ⟨selectRegister_sel s r, selectRegister_idx s r⟩

theorem accept_awaits {s : State} {r : Reg} {n : Nat} (h : s.Awaits r n) (a : Arrival) (l : List Arrival) :
    (s.accept a l).Awaits r n := by
  cases n <;> exact h

theorem respond_awaits_of_transfer {s : State} {r : Reg} {n : Nat} (h : s.Awaits r (n + 1)) {w : EventWord}
    (hw : isTransfer w = true) : (s.respond (decodeEvent w)).Awaits r n := by
  obtain ⟨hsel, hidx⟩ := h
  obtain ⟨hsel', hidx'⟩ := respond_cursor_of_selected hsel w
  cases n with
  | zero => simpa [State.Awaits, hw, hidx] using hsel'
  | succ n => exact ⟨by simpa [hw, hidx] using hsel', by simpa [hw, hidx] using hidx'⟩

theorem respond_awaits_of_not_transfer {s : State} {r : Reg} {n : Nat} (h : s.Awaits r n) {w : EventWord}
    (hw : isTransfer w = false) : (s.respond (decodeEvent w)).Awaits r n := by
  rcases decodeEvent_cases w with ⟨_, _, _, he⟩ | ⟨hk, _⟩ | ⟨hk, _⟩ | ⟨_, he⟩
  · rw [he]
    cases n <;> exact h
  · simp [isTransfer, hk] at hw
  · simp [isTransfer, hk] at hw
  · rw [he]
    cases n <;> exact h

theorem transfers_cons_of_transfer {a : Arrival} (h : isTransfer a.word = true) (l : List Arrival) :
    transfers (a :: l) = transfers l + 1 :=
  List.countP_cons_of_pos h

theorem transfers_cons_of_not_transfer {a : Arrival} (h : isTransfer a.word = false) (l : List Arrival) :
    transfers (a :: l) = transfers l :=
  List.countP_cons_of_neg (by simp [h])

/-- A run over the next events delivers them all, and each transfer among them is one fewer to come. -/
theorem run_awaits (pre rest : List Arrival) : ∀ s : State, s.inbox = pre ++ rest →
    ∃ t, Host.Core.run Sys2Proof.core pre.length s = .next t ∧ t.inbox = rest ∧
      ∀ r n, s.Awaits r (n + transfers pre) → t.Awaits r n := by
  induction pre with
  | nil => exact fun s hi => ⟨s, rfl, hi, fun r n h => h⟩
  | cons a pre ih =>
    intro s hi
    have hstep := step_eq_respond s a (pre ++ rest) hi
    obtain ⟨t, hrun, hinbox, hawaits⟩ := ih _ (respond_inbox (s.accept a (pre ++ rest)) (decodeEvent a.word))
    refine ⟨t, (run_succ_of_step pre.length hstep).trans hrun, hinbox, fun r n h => hawaits r n ?_⟩
    cases hw : isTransfer a.word with
    | true =>
      rw [transfers_cons_of_transfer hw, ← Nat.add_assoc] at h
      exact respond_awaits_of_transfer (accept_awaits h a (pre ++ rest)) hw
    | false =>
      rw [transfers_cons_of_not_transfer hw] at h
      exact respond_awaits_of_not_transfer (accept_awaits h a (pre ++ rest)) hw

/-- Settles O32: the select awaits `WIDTH(r)` transfers, and the run over the events after it counts them down. -/
theorem accessTakesExactlyWidthTransfers : Obligations.AccessTakesExactlyWidthTransfers := by
  intro s r e pre rest hs hi
  have hsel := selectRegister_awaits (s.accept ⟨writeWord r.pointer, e⟩ (pre ++ rest)) r
  obtain ⟨t, hrun, hinbox, hawaits⟩ :=
    run_awaits pre rest _ (selectRegister_inbox (s.accept ⟨writeWord r.pointer, e⟩ (pre ++ rest)) r)
  rw [Nat.add_comm 1]
  refine ⟨t, (run_succ_of_step _ (step_select s r e _ hi hs)).trans hrun, hinbox, fun hlt => ?_, fun heq => ?_⟩
  · refine hawaits r (r.width - 1 - transfers pre + 1) ?_
    rwa [show r.width - 1 - transfers pre + 1 + transfers pre = r.width by omega]
  · refine hawaits r 0 ?_
    rwa [Nat.zero_add, heq]

/-! ### Written bytes read back (`42_bus_transactions.md` R133) -/

theorem res_congr {x y : Regs} (h : x.get .resolution = y.get .resolution) : x.res = y.res := by
  apply BitVec.eq_of_getLsbD_eq
  intro k _
  rw [res_getLsbD, res_getLsbD, h]

/-- A select at time `now` leaves `r` as it is: `r` is not AMBIENT_TEMP, or the gate skips the sample. -/
def State.SelectKeeps (s : State) (r : Reg) (now : Time) : Prop :=
  r = .ambientTemp → ∃ l, s.last = some l ∧ (now : ℤ) - l < floorOf s.regs.res

theorem sample_get_of_selectKeeps {s : State} {r : Reg} (h : s.SelectKeeps r s.env.now) :
    s.sample.regs.get r = s.regs.get r := by
  by_cases hr : r = .ambientTemp
  · rw [sample_of_skips s ((gateSkips_iff s).mpr (h hr))]
  · exact sample_get_other s r hr

theorem selectKeeps_sample {s : State} {r : Reg} (h : s.SelectKeeps r s.env.now) {now : Time} (h' : s.SelectKeeps r now) :
    s.sample.SelectKeeps r now := by
  intro hr
  rw [sample_of_skips s ((gateSkips_iff s).mpr (h hr))]
  exact h' hr

theorem step_select_spec {s : State} {r : Reg} {e : Env} {rest : List Arrival} (hi : s.inbox = ⟨writeWord r.pointer, e⟩ :: rest)
    (hs : s.sel = none) (hkeep : s.SelectKeeps r e.now) :
    ∃ t, step s = .next t ∧ t.sel = some r ∧ t.idx = r.width - 1 ∧ t.inbox = rest ∧ (∀ i, t.memRead r i = s.memRead r i) ∧
      ∀ now, s.SelectKeeps r now → t.SelectKeeps r now := by
  refine ⟨_, step_select s r e rest hi hs, by simp, by simp, by simp, memRead_congr ?_, fun now hnow => ?_⟩
  · rw [selectRegister_regs]
    exact sample_get_of_selectKeeps (s := s.accept ⟨writeWord r.pointer, e⟩ rest) hkeep
  · unfold State.SelectKeeps
    rw [selectRegister_regs, selectRegister_last]
    exact selectKeeps_sample (s := s.accept ⟨writeWord r.pointer, e⟩ rest) hkeep hnow

theorem step_write_spec {s : State} {r : Reg} {b : Byte} {e : Env} {rest : List Arrival} (hi : s.inbox = ⟨writeWord b, e⟩ :: rest)
    (hs : s.sel = some r) (hidx : s.idx < r.width) :
    ∃ t, step s = .next t ∧ t.sel = (if s.idx = 0 then none else some r) ∧ t.idx = s.idx - 1 ∧ t.inbox = rest ∧
      t.memRead r s.idx = s.memRead r s.idx ||| b ∧ (∀ i, i ≠ s.idx → t.memRead r i = s.memRead r i) ∧
      ∀ now, s.SelectKeeps r now → t.SelectKeeps r now := by
  refine ⟨_, step_write s r b e rest hi hs, by simp [hs], by simp, by simp, ?_, fun i hne => ?_, fun now hnow hr => ?_⟩
  · rw [transferIn_memRead]
    exact memRead_memWrite_same _ r s.idx b hidx
  · rw [transferIn_memRead]
    exact memRead_memWrite_other _ r r s.idx i b (by simpa using hne)
  · rw [transferIn_regs, transferIn_last, res_congr (memWrite_get_other _ r .resolution _ b (by simp [hr]))]
    exact hnow hr

/-- Two bytes written into a selected two-byte register, and the register selected and read out. -/
theorem two_bytes_read_back {s : State} {r : Reg} {e₂ e₃ e₄ e₅ e₆ : Env} {b₁ b₀ : Byte} {rest : List Arrival}
    (hsel : s.sel = some r) (hidx : s.idx = 1) (hr : r ≠ .resolution) (hkeep : s.SelectKeeps r e₄.now)
    (hi : s.inbox = ⟨writeWord b₁, e₂⟩ :: ⟨writeWord b₀, e₃⟩ :: ⟨writeWord r.pointer, e₄⟩ :: ⟨readWord, e₅⟩ ::
      ⟨readWord, e₆⟩ :: rest) :
    ∃ t u, Host.Core.run Sys2Proof.core 4 s = .next t ∧ step t = .next u ∧
      t.res.rdata = some (s.memRead r 1 ||| b₁) ∧ u.res.rdata = some (s.memRead r 0 ||| b₀) ∧ u.sel = none := by
  have hwidth := width_eq_two hr
  obtain ⟨s₂, hstep₂, hsel₂, hidx₂, hi₂, hbyte₂, hother₂, hkeep₂⟩ := step_write_spec hi hsel (by omega)
  rw [hidx] at hsel₂ hidx₂ hbyte₂ hother₂
  obtain ⟨s₃, hstep₃, hsel₃, -, hi₃, hbyte₃, hother₃, hkeep₃⟩ := step_write_spec hi₂ hsel₂ (by omega)
  rw [hidx₂] at hsel₃ hbyte₃ hother₃
  obtain ⟨s₄, hstep₄, hsel₄, hidx₄, hi₄, hbytes₄, -⟩ := step_select_spec hi₃ hsel₃ (hkeep₃ _ (hkeep₂ _ hkeep))
  rw [hwidth] at hidx₄
  obtain ⟨t, hstep₅, hrdata₅, hsel₅, hidx₅, hregs₅, hi₅⟩ := step_read_spec hi₄ rfl hsel₄
  rw [hidx₄] at hrdata₅ hsel₅ hidx₅
  obtain ⟨u, hstep₆, hrdata₆, hsel₆, -⟩ := step_read_spec hi₅ rfl hsel₅
  rw [hidx₅, hregs₅] at hrdata₆
  rw [hidx₅] at hsel₆
  rw [← memRead_eq_extractLsb'] at hrdata₅ hrdata₆
  refine ⟨t, u, ?_, hstep₆, ?_, ?_, hsel₆⟩
  · rw [run_succ_of_step 3 hstep₂, run_succ_of_step 2 hstep₃, run_succ_of_step 1 hstep₄, run_succ_of_step 0 hstep₅]
    rfl
  · rw [hrdata₅, hbytes₄, hother₃ _ (by decide), hbyte₂]
  · rw [hrdata₆, hbytes₄, hbyte₃, hother₂ _ (by decide)]

/-- One byte written into RESOLUTION, selected, and the register selected and read out. -/
theorem resolution_byte_reads_back {s : State} {e₂ e₃ e₄ : Env} {b₀ : Byte} {rest : List Arrival}
    (hsel : s.sel = some .resolution) (hidx : s.idx = 0)
    (hi : s.inbox = ⟨writeWord b₀, e₂⟩ :: ⟨writeWord Reg.resolution.pointer, e₃⟩ :: ⟨readWord, e₄⟩ :: rest) :
    ∃ u, Host.Core.run Sys2Proof.core 3 s = .next u ∧ u.res.rdata = some (s.memRead .resolution 0 ||| b₀) ∧ u.sel = none := by
  obtain ⟨s₂, hstep₂, hsel₂, -, hi₂, hbyte₂, -⟩ := step_write_spec hi hsel (by rw [hidx]; decide)
  rw [hidx] at hsel₂ hbyte₂
  obtain ⟨s₃, hstep₃, hsel₃, hidx₃, hi₃, hbytes₃, -⟩ := step_select_spec hi₂ hsel₂ nofun
  replace hidx₃ : s₃.idx = 0 := hidx₃
  obtain ⟨u, hstep₄, hrdata₄, hsel₄, -⟩ := step_read_spec hi₃ rfl hsel₃
  rw [hidx₃] at hrdata₄ hsel₄
  rw [← memRead_eq_extractLsb', hbytes₃, hbyte₂] at hrdata₄
  refine ⟨u, ?_, hrdata₄, hsel₄⟩
  rw [run_succ_of_step 2 hstep₂, run_succ_of_step 1 hstep₃, run_succ_of_step 0 hstep₄]
  rfl

/-- Settles O35: neither select changes the register, so what the writes left in it is read back. -/
theorem writtenBytesReadBackInOrder : Obligations.WrittenBytesReadBackInOrder := by
  intro s r e₁ e₂ e₃ e₄ e₅ e₆ b₁ b₀ rest hs hskip
  refine ⟨fun hr hi => ?_, fun hr hi => ?_⟩
  · have hkeep : s.SelectKeeps r e₁.now := fun h => (hskip h).imp fun l ⟨hl, h₁, _⟩ => ⟨hl, h₁⟩
    have hkeep' : s.SelectKeeps r e₄.now := fun h => (hskip h).imp fun l ⟨hl, _, h₄⟩ => ⟨hl, h₄⟩
    obtain ⟨s₁, hstep₁, hsel₁, hidx₁, hi₁, hbytes₁, hkeep₁⟩ := step_select_spec hi hs hkeep
    rw [width_eq_two hr] at hidx₁
    obtain ⟨t, u, hrun, hstep, ht, hu, husel⟩ := two_bytes_read_back hsel₁ hidx₁ hr (hkeep₁ _ hkeep') hi₁
    rw [hbytes₁] at ht hu
    exact ⟨t, u, (run_succ_of_step 4 hstep₁).trans hrun, hstep, ht, hu, husel⟩
  · subst hr
    obtain ⟨s₁, hstep₁, hsel₁, hidx₁, hi₁, hbytes₁, -⟩ := step_select_spec hi hs nofun
    obtain ⟨u, hrun, hu, husel⟩ := resolution_byte_reads_back hsel₁ hidx₁ hi₁
    rw [hbytes₁] at hu
    exact ⟨u, (run_succ_of_step 3 hstep₁).trans hrun, hu, husel⟩

theorem sample_last_of_floor_passed {s : State}
    (h : ∀ l, s.last = some l → (floorOf s.regs.res : ℤ) ≤ (s.env.now : ℤ) - l) : s.sample.last = some s.env.now := by
  have hgate : s.gateSkips = false := by
    rw [← Bool.not_eq_true, gateSkips_iff]
    rintro ⟨l, hl, hlt⟩
    exact (h l hl).not_gt hlt
  rw [sample_of_taken s hgate]

/-- Settles O38: the first select's sample sets `last`, which makes the second select keep AMBIENT_TEMP. -/
theorem ambientBytesReadBackAfterItsSample : Obligations.AmbientBytesReadBackAfterItsSample := by
  intro s e₁ e₂ e₃ e₄ e₅ e₆ b₁ b₀ rest hs hfloor hskip hi
  have hstep₁ := step_select s .ambientTemp e₁ _ hi hs
  generalize hu : s.accept ⟨writeWord Reg.ambientTemp.pointer, e₁⟩ _ = u at hstep₁
  have hlast : (u.selectRegister .ambientTemp).last = some e₁.now := by
    subst hu
    rw [selectRegister_last]
    exact sample_last_of_floor_passed hfloor
  have hres : (u.selectRegister .ambientTemp).regs.res = s.regs.res := by
    subst hu
    rw [selectRegister_regs, res_congr (sample_get_other _ .resolution (by decide)), accept_regs]
  have hkeep : (u.selectRegister .ambientTemp).SelectKeeps .ambientTemp e₄.now := fun _ => ⟨e₁.now, hlast, by rwa [hres]⟩
  obtain ⟨t, v, hrun, hstep, ht, hv, hvsel⟩ := two_bytes_read_back (selectRegister_sel u _) (selectRegister_idx u _)
    (by decide) hkeep (by rw [selectRegister_inbox, ← hu]; rfl)
  rw [memRead_eq_extractLsb'] at ht hv
  exact ⟨_, t, v, hstep₁, hlast, (run_succ_of_step 4 hstep₁).trans hrun, hstep, ht, hv, hvsel⟩

end Sys2Proof.Machine

namespace Sys2Proof.Machine

/-! ### The trace is output only (`60_exceptions.md` R160) -/

/-- The state with another trace. -/
def State.withTrace (s : State) (l : List Diag) : State := { s with trace := l }

/-- The item that warns of a data write to a readOnly register (`42_bus_transactions.md` R126). -/
def roWriteWarning (r : Reg) : List Diag := if r.readOnly then [.error (.roWrite r)] else []

/-- The items an event appends to the trace, by the selected register (`42_bus_transactions.md` R123 to R129). -/
def State.diagnostics (s : State) : Event → List Diag
  | .connect _ _ => []
  | .write b =>
    match s.sel with
    | none =>
      match Reg.ofPointer b with
      | some r => [.select r]
      | none => [.error (.invalidRegister b)]
    | some r => .write r s.idx b :: roWriteWarning r
  | .read =>
    match s.sel with
    | none => [.error .noRegisterSelected]
    | some r => [.read r s.idx (s.memRead r s.idx)]
  | .disconnect => []

section
variable (s : State) (l : List Diag)

/-! The operations move past `withTrace`, each adding to the trace what it emits. -/

@[simp] theorem withTrace_sel : (s.withTrace l).sel = s.sel := rfl
@[simp] theorem withTrace_idx : (s.withTrace l).idx = s.idx := rfl
@[simp] theorem withTrace_memRead (r : Reg) (i : Nat) : (s.withTrace l).memRead r i = s.memRead r i := rfl
@[simp] theorem beginEvent_withTrace : (s.withTrace l).beginEvent = s.beginEvent.withTrace l := rfl
@[simp] theorem acknowledge_withTrace : (s.withTrace l).acknowledge = s.acknowledge.withTrace l := rfl
@[simp] theorem setRdata_withTrace (b : Byte) : (s.withTrace l).setRdata b = (s.setRdata b).withTrace l := rfl
@[simp] theorem setCursor_withTrace (r : Reg) : (s.withTrace l).setCursor r = (s.setCursor r).withTrace l := rfl
@[simp] theorem memWrite_withTrace (r : Reg) (i : Nat) (b : Byte) :
    (s.withTrace l).memWrite r i b = (s.memWrite r i b).withTrace l := rfl
@[simp] theorem emit_withTrace (d : Diag) : (s.withTrace l).emit d = (s.emit d).withTrace (l ++ [d]) := rfl
@[simp] theorem raise_withTrace (e : ProtocolError) :
    (s.withTrace l).raise e = (s.raise e).withTrace (l ++ [.error e]) := rfl

@[simp] theorem advance_withTrace : (s.withTrace l).advance = s.advance.withTrace l := by
  unfold State.advance
  rw [withTrace_idx]
  split <;> rfl

@[simp] theorem warnReadOnly_withTrace (r : Reg) :
    (s.withTrace l).warnReadOnly r = (s.warnReadOnly r).withTrace (l ++ roWriteWarning r) := by
  unfold State.warnReadOnly roWriteWarning
  split
  · rfl
  · rw [List.append_nil]

@[simp] theorem sample_withTrace : (s.withTrace l).sample = s.sample.withTrace l := by
  have hg : (s.withTrace l).gateSkips = s.gateSkips := rfl
  cases hs : s.gateSkips with
  | true => rw [sample_of_skips _ (hg.trans hs), sample_of_skips s hs]
  | false =>
    rw [sample_of_taken _ (hg.trans hs), sample_of_taken s hs]
    rfl

/-- The trace does not influence the answer to an event, which appends its items to whatever trace it meets. -/
theorem respond_withTrace (e : Event) :
    (s.withTrace l).respond e = (s.respond e).withTrace (l ++ s.diagnostics e) := by
  cases e with
  | connect address isRead => simp [State.respond, State.diagnostics]
  | write b =>
    cases hs : s.sel with
    | none =>
      cases hp : Reg.ofPointer b with
      | none => simp [State.respond, State.diagnostics, hs, hp, State.selectNothing]
      | some r => simp [State.respond, State.diagnostics, hs, hp, State.selectRegister]
    | some r => simp [State.respond, State.diagnostics, hs, State.transferIn]
  | read =>
    cases hs : s.sel with
    | none => simp [State.respond, State.diagnostics, hs, State.readNothing]
    | some r => simp [State.respond, State.diagnostics, hs, State.transferOut]
  | disconnect => simp [State.respond, State.diagnostics]

/-- `respond_withTrace` at the trace the state has. -/
theorem respond_trace (e : Event) : (s.respond e).trace = s.trace ++ s.diagnostics e :=
  congrArg State.trace (respond_withTrace s s.trace e)

theorem roWriteWarning_length_le_one (r : Reg) : (roWriteWarning r).length ≤ 1 := by
  unfold roWriteWarning
  split <;> simp

/-- Only a data write to a readOnly register emits a second item. -/
theorem diagnostics_length_le_two (e : Event) : (s.diagnostics e).length ≤ 2 := by
  cases e with
  | connect | disconnect => simp [State.diagnostics]
  | write b =>
    cases hs : s.sel with
    | none => cases hp : Reg.ofPointer b <;> simp [State.diagnostics, hs, hp]
    | some r => simpa [State.diagnostics, hs] using roWriteWarning_length_le_one r
  | read => cases hs : s.sel <;> simp [State.diagnostics, hs]

end

/-- Settles O37: with no event nothing is appended, and an event delivered appends its diagnostics to whatever trace it meets. -/
theorem traceGrowsAndInfluencesNothing : Obligations.TraceGrowsAndInfluencesNothing := by
  intro s t older h
  rcases inbox_cases s with hi | ⟨a, rest, hi⟩
  · rw [step_nil s hi] at h
    cases h
    refine ⟨[], (List.append_nil _).symm, Nat.zero_le 2, ?_⟩
    rw [List.append_nil]
    exact step_nil (s.withTrace older) hi
  · rw [step_eq_respond s a rest hi] at h
    cases h
    refine ⟨_, respond_trace (s.accept a rest) (decodeEvent a.word), diagnostics_length_le_two _ _, ?_⟩
    exact (step_eq_respond (s.withTrace older) a rest hi).trans
      (congrArg _ (respond_withTrace (s.accept a rest) older (decodeEvent a.word)))

end Sys2Proof.Machine

namespace Sys2Proof.Machine

/-! ### The critical flag of a sample taken (`70_reset_and_hazards.md` R178, R179) -/

/-- A sample taken sets AMBIENT_TEMP[15] exactly where the raw value reaches the threshold, as unsigned numbers
(`41_temperature_sampler.md` R97). -/
theorem sample_ambient_bit15_of_taken {s : State} (h : s.gateSkips = false) :
    s.sample.regs.ambientTemp.getLsbD 15 = decide (s.regs.critTemp.toNat ≤ s.rawSample.toNat) := by
  rw [sample_ambient_of_taken s h, composeAmbient_bit15, critFlag]
  split <;> simp [*]

/-- A negative 16-bit integer wraps to the upper half of the unsigned numbers. -/
theorem le_toNat_ofInt_of_neg {n : ℤ} (hlo : -32768 ≤ n) (hhi : n ≤ -1) : 0x8000 ≤ (BitVec.ofInt 16 n).toNat := by
  rw [BitVec.toNat_ofInt]
  omega

/-- Settles O19: the raw value is the wrapped product, which lies above every threshold below 0x8000. -/
theorem negativeReadingSetsTheCriticalFlag : Obligations.NegativeReadingSetsTheCriticalFlag := by
  intro s v hg hv hlo hhi hthr
  have hraw : s.rawSample = BitVec.ofInt 16 (truncTowardZero (v * 16)) :=
    rawSample_of_q4 (q4_of_value hv (by omega) (by omega))
  rw [sample_ambient_bit15_of_taken hg, hraw, decide_eq_true_eq]
  exact hthr.le.trans (le_toNat_ofInt_of_neg hlo hhi)

/-- Settles O20: every raw value reaches the threshold 0. -/
theorem zeroThresholdSetsTheCriticalFlag : Obligations.ZeroThresholdSetsTheCriticalFlag := by
  intro s hg hthr
  rw [sample_ambient_bit15_of_taken hg, hthr, decide_eq_true_eq]
  exact Nat.zero_le _

/-! ### Time (`70_reset_and_hazards.md` R182) -/

/-- Answering an event does not move the time present at it. -/
theorem respond_env (s : State) (e : Event) : (s.respond e).env = s.env := by
  cases e with
  | connect | disconnect => rfl
  | write b =>
    cases hs : s.sel with
    | none => cases hp : Reg.ofPointer b <;> simp [State.respond, hs, hp]
    | some r => simp [State.respond, hs]
  | read => cases hs : s.sel <;> simp [State.respond, hs]

/-- Answering an event leaves the sampling clock alone or sets it to the time present (`41_temperature_sampler.md` R90, R95). -/
theorem respond_last_cases (s : State) (e : Event) :
    (s.respond e).last = s.last ∨ (s.respond e).last = some s.env.now := by
  have hsample : s.sample.last = s.last ∨ s.sample.last = some s.env.now := (sample_last_cases s).imp_left And.left
  cases e with
  | connect | disconnect => exact .inl rfl
  | write b =>
    cases hs : s.sel with
    | none => cases hp : Reg.ofPointer b <;> simpa [State.respond, hs, hp] using hsample
    | some r => simp [State.respond, hs]
  | read => cases hs : s.sel <;> simp [State.respond, hs]

/-- Delivering the next event moves the time forward to it, and no later event lies before it. -/
theorem accept_timeOrdered {s : State} {a : Arrival} {rest : List Arrival} (hi : s.inbox = a :: rest) (h : s.TimeOrdered) :
    (s.accept a rest).TimeOrdered := by
  obtain ⟨hevents, hpresent, hsampled⟩ := h
  rw [hi] at hevents hpresent
  obtain ⟨hfirst, hrest⟩ := List.pairwise_cons.mp hevents
  exact
    { events := hrest
      present := hfirst
      sampled := fun t ht => (hsampled t ht).trans (hpresent a List.mem_cons_self) }

theorem respond_timeOrdered {s : State} (h : s.TimeOrdered) (e : Event) : (s.respond e).TimeOrdered where
  events := by
    rw [respond_inbox]
    exact h.events
  present := by
    rw [respond_inbox, respond_env]
    exact h.present
  sampled t ht := by
    rw [respond_env]
    rcases respond_last_cases s e with hl | hl
    · exact h.sampled t (hl ▸ ht)
    · rw [hl] at ht
      cases ht
      exact le_rfl

/-- Settles O27: an event delivered keeps the order, and so does the answer to it. -/
theorem everyStepKeepsTimeOrdered : Obligations.EveryStepKeepsTimeOrdered := by
  intro s t hs h
  rcases inbox_cases s with hi | ⟨a, rest, hi⟩
  · rw [step_nil s hi] at h
    cases h
    exact hs
  · rw [step_eq_respond s a rest hi] at h
    cases h
    exact respond_timeOrdered (accept_timeOrdered hi hs) _

/-- Settles O29: only a sample can clear a bit, it writes AMBIENT_TEMP alone, and it is taken only while Idle. -/
theorem stepsNeverClearRegisterBits : Obligations.StepsNeverClearRegisterBits :=
  fun _ _ _ h hr _ hk => step_keeps_bit h hr hk

/-! ### Initialization (`70_reset_and_hazards.md` R171) -/

/-- Settles O24: the values are those `State.init` lists, and reset is initialization at the levels of the platform. -/
theorem initializationLeavesTheListedValues : Obligations.InitializationLeavesTheListedValues :=
  ⟨fun _ => ⟨rfl, rfl, rfl, rfl, rfl, rfl, rfl, rfl, rfl, rfl, rfl, rfl, rfl⟩, Config.pinLevel, rfl⟩

/-- Initialization is Idle and unsampled with the registers at their reset values, and resolves an address in range (R82). -/
theorem init_inv (pin : Fin 3 → Bool) : (State.init pin).Inv where
  cursor _ hr := nomatch hr
  address := (resolvedAddressIsBaseOrPins pin).2
  manufId := BitVec.and_self
  deviceId := BitVec.and_self
  unsampled _ := ⟨rfl, rfl⟩

/-- Settles O25: the reset state is initialization at one choice of levels. -/
theorem initializationMeetsTheInvariant : Obligations.InitializationMeetsTheInvariant :=
  ⟨init_inv, init_inv Config.pinLevel⟩

end Sys2Proof.Machine
